-- ==== Sys2Proof/Word.lean ====
section
/-! DEFINITION. The word types of the block: the octet of a telegram and the register of the check. -/

namespace Sys2Proof

/-- An octet is eight bits (00_scope, Octets and layouts). -/
abbrev Byte := BitVec 8

/-- The sixteen-bit register of the check (R148). -/
abbrev Word16 := BitVec 16

end Sys2Proof
end

