-- ==== Sys2Proof/Syntax.lean ====
section
/-! DEFINITION. The commands of the FG-416: one constructor for each row of spec/opcode_table.json, with its operands. -/

namespace Sys2Proof

/-- The three line ports (R139). -/
inductive Port where
  | o | n | s
deriving DecidableEq, Repr

/-- The steps of the part, in the table's order.
A telegram step names the port whose oldest good telegram it takes; the request steps take port O's (log 3). -/
inductive Instr where
  | powerOn
  | restartComplete
  | receptionStart (port : Port) (octet : Byte) (faulty : Bool)
  | frameEnd (port : Port)
  | sample (port : Port)
  | reply (port : Port)
  | officeCommand
  | orderSend (station : Nat)
  | replyTimerExpiry (station : Nat)
  | stepTimerExpiry (district : Nat)
  | fogTimerExpiry (district : Nat)
  | clockSecond
  | wholeHour
  | waitingTimerExpiry (station : Nat)
  | agingTimerExpiry (station : Nat)
  | settleTimerExpiry
  | scanTimerExpiry
  | scanComplete (code0 code1 code2 code3 : Nat)
  | transmitStart (port : Port)
  | transmissionComplete (port : Port)
  | separationExpiry (port : Port)
  | repeatTimerExpiry
  | reportSend
  | loadSettings
  | loadStation
  | dropStation
  | loadPoint
  | dropPoint
  | loadVapour
  | loadLocal
  | loadHolder
  | loadLift
  | holderService
  | loadDistrict
  | loadProfile
  | stepNow
  | districtMode
  | fog
  | loadMeter
  | setClock
  | collectDay
  | read
  | ackAlarm
  | reset
  | resetTimerExpiry
  | octetArrives (port : Port) (octet : Byte) (faulty : Bool)
deriving DecidableEq, Repr

end Sys2Proof
end

