-- ==== Sys2Proof/Config.lean ====
section
/-! DEFINITION. The capacities and fixed durations of the part, and its free values (constants without a body). -/

namespace Sys2Proof.Config

/-- R150: buffers of class GENERAL. -/
abbrev generalBuffers : Nat := 88
/-- R150: buffers of class RESERVE. -/
abbrev reserveBuffers : Nat := 8
/-- R152: charge limit of a port in PARTITIONED mode. -/
abbrev chargeLimit : Nat := 28
/-- R120: entries of the Station Directory. -/
abbrev directoryEntries : Nat := 48
/-- R127: entries of the stranger list. -/
abbrev strangerEntries : Nat := 8
/-- R61: orders of a pending list. -/
abbrev pendingOrders : Nat := 4
/-- R68: sends of one order. -/
abbrev sendsPerOrder : Nat := 5
/-- R162: records of the Alarm List. -/
abbrev alarmRecords : Nat := 32
/-- R166: entries of the Report Backlog. -/
abbrev backlogEntries : Nat := 64
/-- R168: content octets of one report part. -/
abbrev reportPart : Nat := 55
/-- R170: content octets of one READ part. -/
abbrev readPart : Nat := 54
/-- R10: the longest body. -/
abbrev longestBody : Nat := 58
/-- R140: octets a buffer stores. -/
abbrev bufferOctets : Nat := 64
/-- R140: the frame-end timer, in ms. -/
abbrev frameEndMs : Nat := 4
/-- R145: the separation of port O, in ms. -/
abbrev separationMs : Nat := 5
/-- R14: the settle timer, in s. -/
abbrev settleSeconds : Nat := 2
/-- R128: the aging timer of a stranger, in s. -/
abbrev agingSeconds : Nat := 600
/-- R173: the reset timer, in s. -/
abbrev resetSeconds : Nat := 2
/-- R103: the largest unforced step of the clock, in s. -/
abbrev clockStepSeconds : Nat := 300
/-- R143: the value at which a port figure stays. -/
abbrev figureLimit : Nat := 4294967295

/-- FREE VALUE (log 8). The time a running timer shows as remaining, before it is bounded by the timer's duration; the
argument is State's counter of free values. -/
opaque timeRemaining : Nat → Nat

/-- FREE VALUE (log 10). The octets, read as one number, of a value that its form of R149 cannot hold: the form's octets
and the value. -/
opaque unstatedForm : Nat → Int → Nat

/-- The fields of READ contents that name a state for which the spec lists no codes (log 32). -/
inductive CodeField where
  | quality | localState | confirmedValve | orderedValve | holderMode | branch | liveness | slotPhase
  | lastFault | receiver | transmitter | holding | clockState
deriving DecidableEq, Repr

/-- FREE VALUE (log 32). The code of such a state: its field, and its place in the spec's list of the field's states. -/
opaque unstatedCode : CodeField → Nat → Nat

/-- FREE VALUE (log 45). The two octets that READ shows as the time remaining of a timer that is expired, not stopped; the
argument is State.freeCount. -/
opaque expiredTime : Nat → Nat

end Sys2Proof.Config
end

