-- ==== Sys2Proof/Machine/State.lean ====
section
/-! DEFINITION. The state of the FG-416, block by block, and the state after reset (the POWER restart complete). -/

namespace Sys2Proof.Machine

/-! ### Ports, telegrams and the pool (chapters 8 and 9) -/

/-- A timer is stopped, or running with the duration it was started at, in its own unit (log 2). -/
inductive Timer where
  | stopped
  | running (duration : Nat)
deriving DecidableEq, Repr

/-- The two field branches. -/
inductive Branch where
  | n | s
deriving DecidableEq, Repr

/-- R150: a buffer keeps its class for ever. -/
inductive BufferClass where
  | general | reserve
deriving DecidableEq, Repr

/-- A buffer in use: its class and the port it is charged to, if any (R150, R152). -/
structure Buffer where
  cls : BufferClass
  charge : Option Port
deriving DecidableEq, Repr

/-- What the end of a telegram's transmission brings about beside its freeing: nothing, the end of one copy of a send
(R67; the send's serial), or a pending restart (R173). -/
inductive Tag where
  | plain
  | orderCopy (station : Nat) (send : Nat)
  | resetAnswer
deriving DecidableEq, Repr

/-- A telegram in its buffer: every octet from the destination to the check. -/
structure Telegram where
  buffer : Buffer
  octets : List Byte
  tag : Tag
deriving DecidableEq, Repr

/-- R140: the receiver of a port. -/
inductive Receiver where
  | idle
  | receiving (buffer : Buffer) (octets : List Byte) (count : Nat) (faultMark : Bool)
  | discarding (dropMark : Bool)
deriving DecidableEq, Repr

/-- R144: the transmitter of a port. -/
inductive Transmitter where
  | idle
  | sending (telegram : Telegram)
  | separating
deriving DecidableEq, Repr

/-- R141: the fault last named by a reception check. -/
inductive LineFault where
  | none | badLength | badCheck | badKind | badAddress
deriving DecidableEq, Repr

/-- R139, R156, R157: what one port holds. -/
structure PortState where
  receiver : Receiver
  frameEnd : Timer
  transmitter : Transmitter
  separation : Timer
  good : Nat
  bad : Nat
  dropped : Nat
  sent : Nat
  lastFault : LineFault
  urgent : List Telegram
  routine : List Telegram
  runCount : Nat
deriving DecidableEq, Repr

/-- A good telegram in reception, waiting for the Relay Unit, with its arrival port (R133, R150). -/
structure Received where
  port : Port
  buffer : Buffer
  octets : List Byte
deriving DecidableEq, Repr

/-- R158: the holding states. -/
inductive Holding where
  | notHolding | holding
deriving DecidableEq, Repr

/-- The line side of the part: ports, telegrams in reception, and the pool's counts, charges and holding. -/
structure Line where
  portO : PortState
  portN : PortState
  portS : PortState
  received : List Received
  freeGeneral : Nat
  freeReserve : Nat
  chargeO : Nat
  chargeN : Nat
  chargeS : Nat
  holding : Holding
  repeatTimer : Timer
deriving DecidableEq, Repr

/-- R153: who waits for buffers. -/
inductive Claim where
  | send (station : Nat)
  | backlog
deriving DecidableEq, Repr

/-! ### Station orders and the directory (chapters 4 and 7) -/

/-- R53, R64: supersession causes. -/
inductive SupersessionCause where
  | top | blind | landed | low | out | governor | dropped
deriving DecidableEq, Repr

/-- R48, R63, R69, R82: refusal reasons. -/
inductive RefusalReason where
  | notReckoned | blind | notPermitted | atTop | atLow | busy | noReply | outOfRange | notAllowed
deriving DecidableEq, Repr

/-- Where an order came from. AUTOMATIC is split by its issuer: the Valve Interlock Unit, or the Pressure Scheduler for
a district (R61, R69). -/
inductive Origin where
  | office
  | interlock
  | scheduler (district : Nat)
deriving DecidableEq, Repr

/-- R61: an order record. `entered` is the model's serial of its entering the Order Unit (log 17). -/
structure Order where
  origin : Origin
  station : Nat
  body : List Byte
  sends : Nat
  entered : Nat
deriving DecidableEq, Repr

/-- R62: the order slot. In ON-LINE it holds the serial of its latest send and how many queued copies are still to be
transmitted; in AWAITING-REPLY the reply timer runs. -/
inductive Slot where
  | empty
  | bufferWait (order : Order)
  | onLine (order : Order) (send : Nat) (copies : Nat)
  | awaitingReply (order : Order) (replyTimer : Nat)
deriving DecidableEq, Repr

/-- R121: station kinds. -/
inductive StationKind where
  | holder | governor | meter | telltale | calorimeter | general
deriving DecidableEq, Repr

/-- R124: liveness. -/
inductive Liveness where
  | unheard | live | silent
deriving DecidableEq, Repr

/-- R121, R61: a Station Directory entry with its slot and pending list. Branch UNHEARD is `none`. -/
structure Station where
  address : Nat
  kind : StationKind
  linked : Nat
  waitingTime : Nat
  replyTime : Nat
  branch : Option Branch
  liveness : Liveness
  lastHeard : Option Nat
  migrations : Nat
  waitingTimer : Timer
  slot : Slot
  pendingList : List Order
deriving DecidableEq, Repr

/-- R127: a stranger entry. -/
structure Stranger where
  address : Nat
  branch : Branch
  telegrams : Nat
  lastHeard : Option Nat
  agingTimer : Timer
deriving DecidableEq, Repr

/-! ### Points and the Local Converter (chapter 1) -/

/-- R2: point kinds. -/
inductive PointKind where
  | level | count | period
deriving DecidableEq, Repr

/-- R9: forward modes. -/
inductive ForwardMode where
  | pass | annotate | suppress
deriving DecidableEq, Repr

/-- R6: qualities. -/
inductive Quality where
  | none | good | suspect | failed | stale
deriving DecidableEq, Repr

/-- R2: a point. -/
structure Point where
  station : Nat
  channel : Nat
  kind : PointKind
  lo : Int
  hi : Int
  rawMin : Nat
  rawMax : Nat
  forward : ForwardMode
  lastRaw : Option Nat
  value : Option Int
  quality : Quality
  updated : Option Nat
deriving DecidableEq, Repr

/-- R13: running states of the Local Converter. -/
inductive LocalState where
  | disabled | settling | ready
deriving DecidableEq, Repr

/-- R13: the Local Converter. -/
structure LocalConverter where
  enabled : Bool
  resolution : Nat
  scanPeriod : Nat
  running : LocalState
  settleTimer : Timer
  scanTimer : Timer
  scanning : Bool
deriving DecidableEq, Repr

/-! ### Holders and their valves (chapters 2 and 3) -/

/-- A set of districts; district d is member number d − 1. -/
abbrev DistrictSet := Vector Bool 6

/-- R33: conditions. -/
inductive Condition where
  | landed | low | normal | high | top
deriving DecidableEq, Repr

/-- R31: stock qualities. -/
inductive StockQuality where
  | good | degraded | stale
deriving DecidableEq, Repr

/-- R21: one filled lift entry: pickup rise G, section S, stage pressure P. -/
structure Lift where
  pickup : Nat
  area : Nat
  pressure : Nat
deriving DecidableEq, Repr

/-- R20 to R22: a loaded Holder Record. -/
structure Holder where
  valveStation : Nat
  gaugePoint : Nat
  pressurePoint : Option Nat
  temperaturePoint : Option Nat
  baseVolume : Nat
  stageCount : Nat
  topRise : Nat
  landedMark : Nat
  lowMark : Nat
  highMark : Nat
  topMark : Nat
  hysteresis : Nat
  permitted : DistrictSet
  inReckoning : Bool
  lifts : Vector (Option Lift) 4
  rise : Option Nat
  stage : Option Nat
  actualVolume : Option Nat
  stock : Option Nat
  pressure : Option Nat
  quality : StockQuality
  condition : Condition
  blind : Bool
  overTop : Bool
deriving DecidableEq, Repr

/-- R43: confirmed states of a valve. -/
inductive ValveState where
  | closed | opened | moving | fault | unknown
deriving DecidableEq, Repr

/-- R54: an entry of a closure sequence, with the cause that added it (log 15). -/
structure Closure where
  valve : Nat
  forced : Bool
  cause : SupersessionCause
deriving DecidableEq, Repr

/-- R42, R54: a Routing Record. `inHand` is the serial of the CLOSE handed over for the front entry, if one is. -/
structure Routing where
  confirmed : Vector ValveState 7
  outletSet : DistrictSet
  sequence : List Closure
  inHand : Option Nat
deriving DecidableEq, Repr

/-! ### Districts (chapter 5) -/

/-- R81: district modes. -/
inductive Mode where
  | released | manual | auto
deriving DecidableEq, Repr

/-- R80, note 1: a breakpoint. -/
structure Breakpoint where
  minute : Nat
  pressure : Nat
deriving DecidableEq, Repr

/-- R79, R80: a loaded District Record. -/
structure District where
  governor : Nat
  minimum : Nat
  maximum : Nat
  drop : Nat
  stepPeriod : Nat
  slew : Nat
  deadband : Nat
  outletMeter : Option Nat
  kneeRate : Nat
  loadFactor : Nat
  raiseCap : Nat
  tellTalePoint : Option Nat
  tellTaleMinimum : Nat
  gain : Nat
  decay : Nat
  correctionCap : Nat
  mode : Mode
  activeProfile : List Breakpoint
  nextProfile : List Breakpoint
  nextPending : Bool
  generation : Nat
  active : Option Nat
  lastSent : Option Nat
  lastTarget : Option Nat
  correction : Nat
  fogRaise : Nat
  fogTimer : Timer
  supplyLimit : Nat
  supplied : Bool
  setFailed : Bool
  reportedSetpoint : Option Nat
  releasedMark : Option Bool
  stepTimer : Timer
deriving DecidableEq, Repr

/-! ### Accounts (chapter 6) -/

/-- R113: the flags of an hour record, also of a day. -/
structure HourFlags where
  countGap : Bool
  cvDeclared : Bool
  clockSet : Bool
  stockPartial : Bool
  correctionDegraded : Bool
deriving DecidableEq, Repr

/-- R105: kind and target of a meter. -/
inductive MeterTarget where
  | outlet (district : Nat)
  | make (position : Nat)
deriving DecidableEq, Repr

/-- R105: a loaded Meter Record. An invalid last count keeps the number it holds. -/
structure Meter where
  target : MeterTarget
  countPoint : Nat
  periodPoint : Option Nat
  pressurePoint : Option Nat
  fixedPressure : Nat
  temperaturePoint : Option Nat
  pulseWeight : Nat
  deltaLimit : Nat
  lastCount : Nat
  lastCountValid : Bool
  rate : Nat
  unclockedVolume : Nat
  unclockedEnergy : Nat
  unclockedFlags : HourFlags
deriving DecidableEq, Repr

/-- R113: hour record states. -/
inductive HourState where
  | notOpened | opened | closed
deriving DecidableEq, Repr

/-- R113: a district hour record. -/
structure DistrictHour where
  volume : Nat
  energy : Nat
  peakRate : Nat
  minTellTale : Option Int
  minActive : Option Nat
  maxActive : Option Nat
  flags : HourFlags
deriving DecidableEq, Repr

/-- R113: a make hour record. -/
structure MakeHour where
  volume : Nat
  energy : Nat
  flags : HourFlags
deriving DecidableEq, Repr

/-- R113: the eight records of one hour, which share one state, and its hour-end stock. -/
structure Hour where
  state : HourState
  districts : Vector DistrictHour 6
  makes : Vector MakeHour 2
  endStock : Option Nat
deriving DecidableEq, Repr

/-- R116: the totals of a closed day. -/
structure DayTotals where
  districtVolume : Vector Nat 6
  districtEnergy : Vector Nat 6
  makeVolume : Vector Nat 2
  makeEnergy : Vector Nat 2
  sendOut : Nat
  make : Nat
  flags : HourFlags
deriving DecidableEq, Repr

/-- R113: a day book. `serial` is the model's name of the book (R118; log 17). -/
structure DayBook where
  serial : Nat
  gasDay : Nat
  startHour : Nat
  opening : Nat
  hours : Vector Hour 24
  closing : Option Nat
  totals : Option DayTotals
  uag : Option Int
  collected : Bool
deriving DecidableEq, Repr

/-- R100, R101: the yard clock, with the clock-set mark and the whole hours (by hour of the day) reached and not yet
taken (log 7). -/
structure Clock where
  valid : Bool
  timeOfDay : Nat
  dayCount : Nat
  setMark : Bool
  hoursDue : List Nat
deriving DecidableEq, Repr

/-! ### Alarms and reports (chapter 10) -/

/-- R162: alarm kinds. -/
inductive AlarmKind where
  | overTop | holderHigh | holderTop | holderLow | holderLanded | holderBlind | closeFailed | orderFailed
  | districtShort | districtUnsupplied | meterJump | dayOverwritten | stationSilent | stationMoved
deriving DecidableEq, Repr

/-- R162: what an alarm record is about; the valve only for CLOSE-FAILED. -/
structure AlarmKey where
  kind : AlarmKind
  subject : Nat
  valve : Option Nat
deriving DecidableEq, Repr

/-- R162: alarm record states. -/
inductive AlarmState where
  | active | clearedUnacked
deriving DecidableEq, Repr

/-- R162: an alarm record. -/
structure Alarm where
  key : AlarmKey
  state : AlarmState
  count : Nat
  firstTime : Option Nat
  lastTime : Option Nat
  acknowledged : Bool
  reportOwed : Bool
deriving DecidableEq, Repr

/-- R173, R174: restart causes. -/
inductive RestartCause where
  | power | cold | warm
deriving DecidableEq, Repr

/-- R166: the record a backlog entry refers to. Day-book references name the book and carry its gas day; an hour's
section is a district 1 to 6, or 7 for make and stock. -/
inductive RecordRef where
  | alarm (key : AlarmKey)
  | holder (holder : Nat)
  | district (district : Nat)
  | hour (book : Nat) (gasDay : Nat) (hour : Nat) (part : Nat)
  | day (book : Nat) (gasDay : Nat)
deriving DecidableEq, Repr

/-- R166: a report held in full. -/
inductive FullReport where
  | refusal (station : Nat) (code operand : Option Nat) (reason : RefusalReason)
  | superseded (station : Nat) (code operand : Option Nat) (cause : SupersessionCause)
  | removedAlarm (record : Alarm)
  | start (cause : RestartCause)
deriving DecidableEq, Repr

/-- R166: the two entry forms. -/
inductive EntryForm where
  | reference (record : RecordRef)
  | full (report : FullReport)
deriving DecidableEq, Repr

/-- R167: the content held while a report's parts are sent: the part count, and the parts still to be sent. -/
structure HeldReport where
  partCount : Nat
  remaining : List (List Byte)
deriving DecidableEq, Repr

/-- R166, R167: a backlog entry. -/
structure Entry where
  form : EntryForm
  held : Option HeldReport
deriving DecidableEq, Repr

/-! ### Management (chapter 11) -/

/-- R152: pool modes. -/
inductive PoolMode where
  | shared | partitioned
deriving DecidableEq, Repr

/-- R157: port ratios. -/
inductive Ratio where
  | strict | eight | four | two
deriving DecidableEq, Repr

/-- R137: the six branch-direction enables. -/
structure Enables where
  officeToN : Bool
  officeToS : Bool
  nToS : Bool
  sToN : Bool
  nToOffice : Bool
  sToOffice : Bool
deriving DecidableEq, Repr

/-- R171: the Yard Settings record; alarm kind k is member k − 1 of the report enables. -/
structure Settings where
  declaredCv : Nat
  startHour : Nat
  barometerPoint : Option Nat
  calorimeterPoint : Option Nat
  poolMode : PoolMode
  holdMark : Nat
  goMark : Nat
  holdDuration : Nat
  ratioO : Ratio
  ratioN : Ratio
  ratioS : Ratio
  guardN : Nat
  guardS : Nat
  enables : Enables
  reportEnables : Vector Bool 14
deriving DecidableEq, Repr

/-- R173: restart kinds. -/
inductive RestartKind where
  | warm | cold
deriving DecidableEq, Repr

/-- R169, R173, R174: the unit's state. The 2 s reset timer runs exactly in RESET-PENDING. -/
inductive UnitState where
  | ready
  | resetPending (kind : RestartKind)
  | restarting (cause : RestartCause)
deriving DecidableEq, Repr

/-! ### The machine -/

/-- Everything the spec gives the part, block by block, and the queue of waiting commands. -/
structure State where
  pending : List Instr
  unit : UnitState
  lastCause : RestartCause
  settings : Settings
  line : Line
  claims : List Claim
  directory : List Station
  strangers : List Stranger
  points : Vector (Option Point) 192
  vapour : Vector (Option Nat) 41
  localConverter : LocalConverter
  holders : Vector (Option Holder) 8
  yardStock : Nat
  routings : Vector (Option Routing) 8
  districts : Vector (Option District) 6
  outletSets : Vector DistrictSet 8
  clock : Clock
  meters : Vector (Option Meter) 8
  currentBook : Option DayBook
  previousBook : Option DayBook
  alarms : List Alarm
  alarmOverflow : Bool
  backlog : List Entry
  backlogOverflow : Bool
  serial : Nat
  freeCount : Nat
deriving DecidableEq, Repr

/-- The part never stops with a fault: no rule names one, and no meaning raises one. Safe: there is nothing to raise. -/
inductive Fault where
deriving DecidableEq, Repr

/-- Why a command has no meaning. -/
inductive Refusal where
  /-- Raised by exec's arm of a command that has no meaning yet, with its mnemonic. Safe: the model stops. No arm raises
  it now. -/
  | notModelled (mnemonic : String)
deriving DecidableEq, Repr

/-- A step's outcome, in this model's types. -/
abbrev Result := Host.Outcome State Fault Refusal

/-! ### Reset -/

/-- R171: the defaults of the Yard Settings. -/
def Settings.default : Settings where
  declaredCv := 18600
  startHour := 6
  barometerPoint := none
  calorimeterPoint := none
  poolMode := .shared
  holdMark := 16
  goMark := 40
  holdDuration := 10
  ratioO := .four
  ratioN := .four
  ratioS := .four
  guardN := 20
  guardS := 20
  enables := ⟨true, true, true, true, true, true⟩
  reportEnables := Vector.replicate 14 true

/-- R139, R146: a port at the end of a POWER or COLD restart, its separation as given. -/
def PortState.reset (separation : Nat) : PortState where
  receiver := .discarding false
  frameEnd := .running Config.frameEndMs
  transmitter := .separating
  separation := .running separation
  good := 0
  bad := 0
  dropped := 0
  sent := 0
  lastFault := .none
  urgent := []
  routine := []
  runCount := 0

/-- R139, R150, R158: the line side at the end of a POWER or COLD restart. -/
def Line.reset : Line where
  portO := PortState.reset Config.separationMs
  portN := PortState.reset 20
  portS := PortState.reset 20
  received := []
  freeGeneral := Config.generalBuffers
  freeReserve := Config.reserveBuffers
  chargeO := 0
  chargeN := 0
  chargeS := 0
  holding := .notHolding
  repeatTimer := .stopped

/-- R13: the Local Converter after power-on. -/
def LocalConverter.reset : LocalConverter where
  enabled := false
  resolution := 10
  scanPeriod := 10
  running := .disabled
  settleTimer := .stopped
  scanTimer := .stopped
  scanning := false

/-- R100: the yard clock after power-on. -/
def Clock.reset : Clock where
  valid := false
  timeOfDay := 0
  dayCount := 0
  setMark := false
  hoursDue := []

/-- The empty set of districts. -/
def DistrictSet.empty : DistrictSet := Vector.replicate 6 false

/-- The machine once its POWER restart is complete (R173, R174; log 16): every rule's power-on value, and one START
entry in the Report Backlog. -/
def State.reset : State where
  pending := []
  unit := .ready
  lastCause := .power
  settings := Settings.default
  line := Line.reset
  claims := []
  directory := []
  strangers := []
  points := Vector.replicate 192 none
  vapour := Vector.replicate 41 none
  localConverter := LocalConverter.reset
  holders := Vector.replicate 8 none
  yardStock := 0
  routings := Vector.replicate 8 none
  districts := Vector.replicate 6 none
  outletSets := Vector.replicate 8 DistrictSet.empty
  clock := Clock.reset
  meters := Vector.replicate 8 none
  currentBook := none
  previousBook := none
  alarms := []
  alarmOverflow := false
  backlog := [⟨.full (.start .power), none⟩]
  backlogOverflow := false
  serial := 0
  freeCount := 0

end Sys2Proof.Machine
end

