-- ==== Sys2Proof/Machine/Operands.lean ====
section
/-! DEFINITION. Octets and fields: layouts, codes and forms of R148 and R149, and the check. -/

namespace Sys2Proof.Machine

/-! ### Octets -/

/-- The octet of a number. -/
def octet (v : Nat) : Byte := BitVec.ofNat 8 v

/-- Octets read as one number, high octet first (00_scope, Octets and layouts). -/
def numberOf (octets : List Byte) : Nat := octets.foldl (fun acc b => acc * 256 + b.toNat) 0

/-- A number written in k octets, high octet first. -/
def octetsOf : Nat → Nat → List Byte
  | 0, _ => []
  | k + 1, v => octet (v / 256 ^ k) :: octetsOf k v

/-- The field of k octets at an offset. -/
def field (octets : List Byte) (offset k : Nat) : Nat := numberOf ((octets.drop offset).take k)

/-- A number of k octets read in two's complement (chapter 8, Telegram layouts). -/
def signedOf (k v : Nat) : Int := if v < 2 ^ (8 * k - 1) then (v : Int) else (v : Int) - 2 ^ (8 * k)

/-- The signed field of k octets at an offset. -/
def signedField (octets : List Byte) (offset k : Nat) : Int := signedOf k (field octets offset k)

/-- One octet as a number; an octet that is not there reads 0. -/
def octetAt (octets : List Byte) (i : Nat) : Nat := (octets.getD i 0).toNat

/-! ### The check (R148) -/

/-- One bit through the register of generator x¹⁶ + x¹² + x⁵ + 1. -/
def checkBit (r : Word16) (b : Bool) : Word16 :=
  if r.msb != b then (r <<< 1) ^^^ 0x1021#16 else r <<< 1

/-- One octet through the register, high bit first. -/
def checkOctet (r : Word16) (o : Byte) : Word16 :=
  [7, 6, 5, 4, 3, 2, 1, 0].foldl (fun r i => checkBit r (o.getLsbD i)) r

/-- R148: the register starts at 65,535 and is not inverted at the end. -/
def check (octets : List Byte) : Word16 := octets.foldl checkOctet 0xFFFF#16

/-! ### Telegrams (chapter 8, Telegram layouts) -/

/-- A whole telegram: four header octets, the body, and the check formed over both. -/
def frame (destination source kind : Nat) (body : List Byte) : List Byte :=
  let covered := octet destination :: octet source :: octet kind :: octet body.length :: body
  covered ++ octetsOf 2 (check covered).toNat

/-- Octet 0. -/
def destinationOf (octets : List Byte) : Nat := octetAt octets 0
/-- Octet 1. -/
def sourceOf (octets : List Byte) : Nat := octetAt octets 1
/-- Octet 2. -/
def kindOf (octets : List Byte) : Nat := octetAt octets 2
/-- Octet 3. -/
def bodyLengthOf (octets : List Byte) : Nat := octetAt octets 3
/-- Octets 4 to 3 + body length. -/
def bodyOf (octets : List Byte) : List Byte := (octets.drop 4).take (bodyLengthOf octets)

/-- Telegram kinds (chapter 8, layouts, octet 2). -/
abbrev kindSample : Nat := 1
abbrev kindCommand : Nat := 2
abbrev kindReply : Nat := 3
abbrev kindManage : Nat := 4
abbrev kindAnswer : Nat := 5
abbrev kindReport : Nat := 6
abbrev kindHold : Nat := 7
abbrev kindGo : Nat := 8

/-- Addresses (00_scope, Addresses). -/
abbrev officeAddress : Nat := 0
abbrev ownAddress : Nat := 240
abbrev allStations : Nat := 255

/-- 00_scope, Addresses: a field station's address. -/
def isFieldAddress (a : Nat) : Bool := decide (1 ≤ a ∧ a ≤ 239)

/-- Order codes (chapter 8, Body layouts). -/
abbrev codeOpen : Nat := 1
abbrev codeClose : Nat := 2
abbrev codeSet : Nat := 3
abbrev codeRelease : Nat := 4
abbrev codeAsk : Nat := 5

/-- R61: the order code is body octet 0; absent when the body is empty. An octet of 0 is held as a present code 0
(log 37). -/
def orderCode (body : List Byte) : Option Nat := body.head?.map (·.toNat)

/-- R61: the operand is body octets 1 and 2; absent when the body is shorter than 3 octets. -/
def operandOf (body : List Byte) : Option Nat := if 3 ≤ body.length then some (field body 1 2) else none

/-- A three-octet order body: order code, operand. -/
def orderBody (code operand : Nat) : List Byte := octet code :: octetsOf 2 operand

/-- Results of a REPLY (chapter 8). -/
inductive ReplyResult where
  | done | failed | refused | badOrder
deriving DecidableEq, Repr

/-- R70: the result octet is body octet 3; a body of 3 octets, or a code outside 0 to 3, reads FAILED. -/
def replyResult (body : List Byte) : ReplyResult :=
  match body[3]? with
  | none => .failed
  | some o => match o.toNat with
    | 0 => .done
    | 2 => .refused
    | 3 => .badOrder
    | _ => .failed

/-- R46: the state a valve-state octet gives. -/
def valveStateOf (o : Byte) : ValveState :=
  match o.toNat with
  | 0 => .closed
  | 1 => .opened
  | 2 => .moving
  | 3 => .fault
  | _ => .unknown

/-! ### SAMPLE bodies (R3) -/

/-- A raw entry: channel octet, quality octet, value. -/
structure RawEntry where
  channel : Nat
  quality : Nat
  value : Nat
deriving DecidableEq, Repr

/-- R3: the entry count lies from 1 to 14 and the body length equals 1 plus 4 times the count. -/
def sampleWellFormed (body : List Byte) : Bool :=
  decide (1 ≤ octetAt body 0 ∧ octetAt body 0 ≤ 14 ∧ body.length = 1 + 4 * octetAt body 0)

/-- The raw entries in body order, four octets each, from the octets after the entry count. -/
def rawEntries : List Byte → List RawEntry
  | c :: q :: h :: l :: rest => ⟨c.toNat, q.toNat, h.toNat * 256 + l.toNat⟩ :: rawEntries rest
  | _ => []

/-- A raw entry written out. -/
def rawOctets (e : RawEntry) : List Byte := octet e.channel :: octet e.quality :: octetsOf 2 e.value

/-! ### Codes -/

/-- R169: results of a request. -/
inductive ResultCode where
  | accepted | badFormat | outOfRange | duplicate | unknownItem | inService | full | noClock
  | stepTooLarge | staleAck | notAllowed
deriving DecidableEq, Repr

/-- Chapter 8, Codes: result code. -/
def ResultCode.code : ResultCode → Nat
  | .accepted => 0
  | .badFormat => 1
  | .outOfRange => 2
  | .duplicate => 3
  | .unknownItem => 4
  | .inService => 5
  | .full => 6
  | .noClock => 7
  | .stepTooLarge => 8
  | .staleAck => 9
  | .notAllowed => 10

/-- Chapter 8, Codes: alarm kind. -/
def AlarmKind.code : AlarmKind → Nat
  | .overTop => 1
  | .holderHigh => 2
  | .holderTop => 3
  | .holderLow => 4
  | .holderLanded => 5
  | .holderBlind => 6
  | .closeFailed => 7
  | .orderFailed => 8
  | .districtShort => 9
  | .districtUnsupplied => 10
  | .meterJump => 11
  | .dayOverwritten => 12
  | .stationSilent => 13
  | .stationMoved => 14

/-- The alarm kind of a code from 1 to 14. -/
def alarmKindOf : Nat → Option AlarmKind
  | 1 => some .overTop
  | 2 => some .holderHigh
  | 3 => some .holderTop
  | 4 => some .holderLow
  | 5 => some .holderLanded
  | 6 => some .holderBlind
  | 7 => some .closeFailed
  | 8 => some .orderFailed
  | 9 => some .districtShort
  | 10 => some .districtUnsupplied
  | 11 => some .meterJump
  | 12 => some .dayOverwritten
  | 13 => some .stationSilent
  | 14 => some .stationMoved
  | _ => none

/-- Chapter 8, Codes: refusal reason. -/
def RefusalReason.code : RefusalReason → Nat
  | .notReckoned => 1
  | .blind => 2
  | .notPermitted => 3
  | .atTop => 4
  | .atLow => 5
  | .busy => 6
  | .noReply => 7
  | .outOfRange => 8
  | .notAllowed => 9

/-- Chapter 8, Codes: supersession cause. -/
def SupersessionCause.code : SupersessionCause → Nat
  | .top => 1
  | .blind => 2
  | .landed => 3
  | .low => 4
  | .out => 5
  | .governor => 6
  | .dropped => 7

/-- Chapter 8, Codes: origin 0 OFFICE, 1 AUTOMATIC. -/
def Origin.code : Origin → Nat
  | .office => 0
  | .interlock => 1
  | .scheduler _ => 1

/-- Chapter 8, Codes: point kind. -/
def PointKind.code : PointKind → Nat
  | .level => 0
  | .count => 1
  | .period => 2

def pointKindOf : Nat → Option PointKind
  | 0 => some .level
  | 1 => some .count
  | 2 => some .period
  | _ => none

/-- Chapter 8, Codes: forward mode. -/
def ForwardMode.code : ForwardMode → Nat
  | .pass => 0
  | .annotate => 1
  | .suppress => 2

def forwardModeOf : Nat → Option ForwardMode
  | 0 => some .pass
  | 1 => some .annotate
  | 2 => some .suppress
  | _ => none

/-- Chapter 8, Codes: station kind. -/
def StationKind.code : StationKind → Nat
  | .holder => 0
  | .governor => 1
  | .meter => 2
  | .telltale => 3
  | .calorimeter => 4
  | .general => 5

def stationKindOf : Nat → Option StationKind
  | 0 => some .holder
  | 1 => some .governor
  | 2 => some .meter
  | 3 => some .telltale
  | 4 => some .calorimeter
  | 5 => some .general
  | _ => none

/-- Chapter 8, Codes: district mode. -/
def Mode.code : Mode → Nat
  | .released => 0
  | .manual => 1
  | .auto => 2

def modeOf : Nat → Option Mode
  | 0 => some .released
  | 1 => some .manual
  | 2 => some .auto
  | _ => none

/-- Chapter 8, Codes: pool mode. -/
def PoolMode.code : PoolMode → Nat
  | .shared => 0
  | .partitioned => 1

def poolModeOf : Nat → Option PoolMode
  | 0 => some .shared
  | 1 => some .partitioned
  | _ => none

/-- Chapter 8, Codes: port ratio. -/
def Ratio.code : Ratio → Nat
  | .strict => 0
  | .eight => 1
  | .four => 2
  | .two => 3

def ratioOf : Nat → Option Ratio
  | 0 => some .strict
  | 1 => some .eight
  | 2 => some .four
  | 3 => some .two
  | _ => none

/-- Chapter 8, Codes: START cause 0 POWER, 1 COLD, 2 WARM. -/
def RestartCause.code : RestartCause → Nat
  | .power => 0
  | .cold => 1
  | .warm => 2

/-- Chapter 8, Codes: restart kind 0 WARM, 1 COLD. -/
def restartKindOf : Nat → Option RestartKind
  | 0 => some .warm
  | 1 => some .cold
  | _ => none

/-- Chapter 8, Codes: enable, FORCE and yes-no octets; also OUT and IN, clear and set. -/
def boolOf : Nat → Option Bool
  | 0 => some false
  | 1 => some true
  | _ => none

def boolCode (b : Bool) : Nat := if b then 1 else 0

/-- R168: the condition's code. -/
def Condition.code : Condition → Nat
  | .landed => 0
  | .low => 1
  | .normal => 2
  | .high => 3
  | .top => 4

/-- R168: the stock quality's code. -/
def StockQuality.code : StockQuality → Nat
  | .good => 0
  | .degraded => 1
  | .stale => 2

/-- R9: the quality code of an annotated entry. A point that has taken an entry is never NONE. -/
def Quality.code : Quality → Nat
  | .good => 0
  | .suspect => 1
  | .failed => 2
  | .stale => 3
  | .none => 255

/-- R168, note 1: the hour-record state's code. -/
def HourState.code : HourState → Nat
  | .notOpened => 0
  | .opened => 1
  | .closed => 2

/-- R149: 255 in a point or meter field is the code for none. -/
def pointField (v : Nat) : Option Nat := if v = 255 then none else some v

/-- R149: a set of districts is six octets, each 0 or 1. -/
def districtSetOf (octets : List Byte) : DistrictSet := Vector.ofFn (fun i : Fin 6 => decide (octetAt octets i = 1))

/-- Every octet is 0 or 1. -/
def allBits (octets : List Byte) : Bool := octets.all (fun o => decide (o.toNat ≤ 1))

/-! ### Forms of ANSWER data and REPORT content (R149) -/

/-- An unsigned quantity in a form of k octets; a value the form cannot hold is free (log 10). -/
def form (k : Nat) (v : Int) : List Byte :=
  if 0 ≤ v ∧ v < 256 ^ k then octetsOf k v.toNat else octetsOf k (Config.unstatedForm k v)

/-- A quantity that may be absent: all octets 255. -/
def formOr (k : Nat) : Option Int → List Byte
  | none => List.replicate k 255
  | some v => form k v

/-- A natural quantity that may be absent. -/
def formNat (k : Nat) (v : Option Nat) : List Byte := formOr k (v.map (fun n => (n : Int)))

/-- A signed quantity of k octets, in two's complement; absent is the lowest value. -/
def signedForm (k : Nat) : Option Int → List Byte
  | none => octet 128 :: List.replicate (k - 1) 0
  | some v =>
    if -(2 ^ (8 * k - 1)) ≤ v ∧ v < 2 ^ (8 * k - 1) then octetsOf k (v % 2 ^ (8 * k)).toNat
    else octetsOf k (Config.unstatedForm k v)

/-- R149, small number. -/
def small (v : Nat) : List Byte := form 1 v
/-- R149, small number that may be absent. -/
def smallOr (v : Option Nat) : List Byte := formNat 1 v
/-- R149, pressure or rise. -/
def twoOctets (v : Nat) : List Byte := form 2 v
/-- R149, pressure or rise that may be absent. -/
def twoOctetsOr (v : Option Nat) : List Byte := formNat 2 v
/-- R149, wide. -/
def wide (v : Nat) : List Byte := form 4 v
/-- R149, wide that may be absent. -/
def wideOr (v : Option Nat) : List Byte := formNat 4 v
/-- R149, engineering value. -/
def engineering (v : Option Int) : List Byte := signedForm 4 v
/-- R149, stock or volume. -/
def stockForm (v : Option Nat) : List Byte := formNat 5 v
/-- R149, energy. -/
def energyForm (v : Option Nat) : List Byte := formNat 6 v
/-- R149, balance. -/
def balance (v : Option Int) : List Byte := signedForm 6 v
/-- A yes-no or set-clear octet. -/
def flagOctet (b : Bool) : List Byte := small (boolCode b)
/-- A set of districts, one octet each. -/
def districtSetOctets (d : DistrictSet) : List Byte := d.toList.flatMap flagOctet

/-! ### Numbers -/

/-- 00_scope, Rounding: to the nearest integer, halves going up, of a quotient that cannot be negative. -/
def rounded (numerator denominator : Nat) : Nat := (2 * numerator + denominator) / (2 * denominator)

end Sys2Proof.Machine
end

