-- ==== Sys2Proof/Machine/Flags.lean ====
section
/-! DEFINITION. Flags, qualities, conditions and modes computed from other values. -/

namespace Sys2Proof.Machine

/-- No flag set. -/
def HourFlags.clear : HourFlags := ⟨false, false, false, false, false⟩

/-- Flags set in either. -/
def HourFlags.union (a b : HourFlags) : HourFlags :=
  ⟨a.countGap || b.countGap, a.cvDeclared || b.cvDeclared, a.clockSet || b.clockSet,
    a.stockPartial || b.stockPartial, a.correctionDegraded || b.correctionDegraded⟩

/-- R149 (flag set), R168 note 2: COUNT-GAP 1, CV-DECLARED 2, CLOCK-SET 4, STOCK-PARTIAL 8, CORRECTION-DEGRADED 16. -/
def HourFlags.value (f : HourFlags) : Nat :=
  boolCode f.countGap + 2 * boolCode f.cvDeclared + 4 * boolCode f.clockSet + 8 * boolCode f.stockPartial
    + 16 * boolCode f.correctionDegraded

/-- R149 (flag set), R105: the unclocked flags, in the order of their own list: COUNT-GAP 1, CV-DECLARED 2,
CORRECTION-DEGRADED 4. An increment sets no other. -/
def HourFlags.unclockedValue (f : HourFlags) : Nat :=
  boolCode f.countGap + 2 * boolCode f.cvDeclared + 4 * boolCode f.correctionDegraded

/-- R6: the quality an entry gives its point. `clamped` is that of R4, and false for COUNT and PERIOD. -/
def entryQuality (qualityOctet : Nat) (clamped : Bool) : Quality :=
  match qualityOctet with
  | 0 => if clamped then .suspect else .good
  | 1 => .suspect
  | _ => .failed

/-- R33: the condition after a reckoning of rise h, by the first row that applies. -/
def conditionAfter (r : Holder) (h : Nat) : Condition :=
  if r.topMark ≤ h then .top
  else if h ≤ r.landedMark then .landed
  else if r.condition = .top ∧ r.topMark ≤ h + r.hysteresis then .top
  else if r.condition = .landed ∧ h ≤ r.landedMark + r.hysteresis then .landed
  else if r.highMark ≤ h then .high
  else if h ≤ r.lowMark then .low
  else if (r.condition = .top ∨ r.condition = .high) ∧ r.highMark ≤ h + r.hysteresis then .high
  else if (r.condition = .landed ∨ r.condition = .low) ∧ h ≤ r.lowMark + r.hysteresis then .low
  else .normal

/-- R34: the alarm of a condition other than NORMAL. -/
def conditionAlarm : Condition → Option AlarmKind
  | .landed => some .holderLanded
  | .low => some .holderLow
  | .normal => none
  | .high => some .holderHigh
  | .top => some .holderTop

/-- R44: holder modes. -/
inductive HolderMode where
  | filling | emptying | floating | isolated | unknown
deriving DecidableEq, Repr

/-- R45: the set of districts whose outlet reads OPEN. -/
def outletSetOf (confirmed : Vector ValveState 7) : DistrictSet :=
  Vector.ofFn (fun i : Fin 6 => decide (confirmed[i.val + 1]? = some .opened))

/-- R44: the holder mode, by the first row that applies. -/
def holderMode (confirmed : Vector ValveState 7) : HolderMode :=
  if confirmed.toList.any (fun v => v == .moving || v == .fault || v == .unknown) then .unknown
  else
    let outletOpen := (outletSetOf confirmed).toList.any id
    if confirmed[0] = .opened then (if outletOpen then .floating else .filling)
    else (if outletOpen then .emptying else .isolated)

/-- The member for district d of a set. -/
def DistrictSet.has (set : DistrictSet) (d : Nat) : Bool :=
  match d with
  | 0 => false
  | i + 1 => (set[i]?).getD false

end Sys2Proof.Machine
end

