-- ==== Sys2Proof/Machine/Ops.lean ====
section
/-! DEFINITION. Shared operations: numbered records, entries by address, the time of a record, the Alarm List and the
Report Backlog's owing (chapter 10). -/

namespace Sys2Proof.Machine

/-! ### Numbered records and entries -/

/-- The record at an index of a table; empty past its end. -/
def tableGet {α : Type} {n : Nat} (t : Vector (Option α) n) (i : Nat) : Option α := (t[i]?).join

/-- A table with one record written; an index past its end writes nothing. -/
def tableSet {α : Type} {n : Nat} (t : Vector (Option α) n) (i : Nat) (x : Option α) : Vector (Option α) n :=
  t.setIfInBounds i x

/-- Records numbered from 1 (holders, districts, meters): the record of a number; none for 0 or past the end. -/
def recordGet {α : Type} {n : Nat} (t : Vector (Option α) n) : Nat → Option α
  | 0 => none
  | i + 1 => tableGet t i

/-- Records numbered from 1, with one written; 0 or past the end writes nothing. -/
def recordSet {α : Type} {n : Nat} (t : Vector (Option α) n) (k : Nat) (x : Option α) : Vector (Option α) n :=
  match k with
  | 0 => t
  | i + 1 => tableSet t i x

/-- A vector with one member changed; an index past its end changes nothing. -/
def vectorModify {α : Type} {n : Nat} (v : Vector α n) (i : Nat) (f : α → α) : Vector α n :=
  match v[i]? with
  | none => v
  | some x => v.setIfInBounds i (f x)

namespace State

/-- The point of a number, none where the entry is empty. -/
def point (s : State) (n : Nat) : Option Point := tableGet s.points n
/-- The loaded Holder Record of a number. -/
def holder (s : State) (h : Nat) : Option Holder := recordGet s.holders h
/-- The Routing Record of a holder number. -/
def routing (s : State) (h : Nat) : Option Routing := recordGet s.routings h
/-- The loaded District Record of a number. -/
def district (s : State) (d : Nat) : Option District := recordGet s.districts d
/-- The loaded Meter Record of a number. -/
def meter (s : State) (m : Nat) : Option Meter := recordGet s.meters m
/-- The directory entry of an address. -/
def station (s : State) (a : Nat) : Option Station := s.directory.find? (fun e => e.address == a)
/-- The stranger entry of an address. -/
def stranger (s : State) (a : Nat) : Option Stranger := s.strangers.find? (fun e => e.address == a)

def putPoint (s : State) (n : Nat) (x : Option Point) : State := { s with points := tableSet s.points n x }
def putHolder (s : State) (h : Nat) (x : Holder) : State := { s with holders := recordSet s.holders h (some x) }
def putRouting (s : State) (h : Nat) (x : Routing) : State := { s with routings := recordSet s.routings h (some x) }
def putDistrict (s : State) (d : Nat) (x : District) : State := { s with districts := recordSet s.districts d (some x) }
def putMeter (s : State) (m : Nat) (x : Meter) : State := { s with meters := recordSet s.meters m (some x) }

/-- The directory with the entry of one address changed. -/
def modStation (s : State) (a : Nat) (f : Station → Station) : State :=
  { s with directory := s.directory.map (fun e => if e.address == a then f e else e) }

/-- R2 note 2, R121 note 2, R163: the yard-clock time, absent while the clock is INVALID. -/
def timeNow (s : State) : Option Nat := if s.clock.valid then some s.clock.timeOfDay else none

/-- The holder whose loaded record names the address as its valve station (R46, R47). -/
def holderOfStation (s : State) (a : Nat) : Option Nat :=
  [1, 2, 3, 4, 5, 6, 7, 8].find? (fun h => (s.holder h).any (fun r => r.valveStation == a))

/-- The district whose loaded record names the address as its governor station (R82). -/
def districtOfStation (s : State) (a : Nat) : Option Nat :=
  [1, 2, 3, 4, 5, 6].find? (fun d => (s.district d).any (fun r => r.governor == a))

end State

/-- The holder numbers in ascending order. -/
abbrev holderNumbers : List Nat := [1, 2, 3, 4, 5, 6, 7, 8]
/-- The district numbers in ascending order. -/
abbrev districtNumbers : List Nat := [1, 2, 3, 4, 5, 6]
/-- The meter numbers in ascending order. -/
abbrev meterNumbers : List Nat := [1, 2, 3, 4, 5, 6, 7, 8]

/-! ### Report Backlog: owing (R166) -/

/-- A record is referenced when an entry of the backlog refers to it. -/
def referenced (ref : RecordRef) (s : State) : Bool := s.backlog.any (fun e => e.form == .reference ref)

/-- R166: an entry joins the tail if the backlog holds fewer than 64; otherwise the overflow flag is set. -/
def addEntry (f : EntryForm) (s : State) : State :=
  if s.backlog.length < Config.backlogEntries then { s with backlog := s.backlog ++ [⟨f, none⟩] }
  else { s with backlogOverflow := true }

/-- R166: a report owed on a record already referenced adds nothing. -/
def oweReference (ref : RecordRef) (s : State) : State :=
  if referenced ref s then s else addEntry (.reference ref) s

/-- R166: a report owed in full. -/
def oweFull (r : FullReport) (s : State) : State := addEntry (.full r) s

/-- R166: an ALARM report owed on a held record; the record's report-owed flag is set when its entry is added. -/
def oweAlarm (key : AlarmKey) (s : State) : State :=
  if referenced (.alarm key) s then s
  else if s.backlog.length < Config.backlogEntries then
    { s with
      backlog := s.backlog ++ [⟨.reference (.alarm key), none⟩]
      alarms := s.alarms.map (fun r => if r.key == key then { r with reportOwed := true } else r) }
  else { s with backlogOverflow := true }

/-- R163, R164: the report enable of a kind, as it stands. -/
def reportEnabled (k : AlarmKind) (s : State) : Bool := (s.settings.reportEnables[k.code - 1]?).getD false

/-- R163, R164: an ALARM report on the record is owed if its kind's report enable is on. -/
def oweAlarmIfEnabled (key : AlarmKey) (s : State) : State :=
  if reportEnabled key.kind s then oweAlarm key s else s

/-! ### Alarm List (R162 to R165) -/

/-- The record of a kind and subject. -/
def findAlarm (key : AlarmKey) (s : State) : Option Alarm := s.alarms.find? (fun r => r.key == key)

/-- R166: a record leaves the list; an entry referring to it stays in its place and becomes full. -/
def removeAlarm (r : Alarm) (s : State) : State :=
  { s with
    alarms := s.alarms.filter (fun q => q.key != r.key)
    backlog := s.backlog.map (fun e =>
      if e.form == .reference (.alarm r.key) then { e with form := .full (.removedAlarm r) } else e) }

/-- R166: the removal of an alarm record. With no entry referring to it, and `oweIfAlone`, a full entry joins the
tail. -/
def dropAlarm (r : Alarm) (oweIfAlone : Bool) (s : State) : State :=
  if referenced (.alarm r.key) s || !oweIfAlone then removeAlarm r s
  else oweFull (.removedAlarm r) (removeAlarm r s)

/-- R163: the overflow flag is cleared when a removal leaves the list holding fewer than 32 records (log 12). -/
def settleAlarmOverflow (s : State) : State :=
  if s.alarms.length < Config.alarmRecords then { s with alarmOverflow := false } else s

/-- R163: a record appended at the tail. -/
def appendAlarm (key : AlarmKey) (s : State) : State :=
  { s with alarms := s.alarms ++ [⟨key, .active, 1, s.timeNow, s.timeNow, false, false⟩] }

/-- R163: a block raises an alarm. -/
def raiseAlarm (key : AlarmKey) (s : State) : State :=
  match findAlarm key s with
  | some _ =>
    oweAlarmIfEnabled key { s with
      alarms := s.alarms.map (fun r =>
        if r.key == key then
          { r with count := min 255 (r.count + 1), lastTime := s.timeNow, state := .active, acknowledged := false }
        else r) }
  | none =>
    if s.alarms.length < Config.alarmRecords then oweAlarmIfEnabled key (appendAlarm key s)
    else
      match s.alarms.find? (fun r => r.state == .clearedUnacked) with
      | some oldest => oweAlarmIfEnabled key (appendAlarm key (removeAlarm oldest s))
      | none => { s with alarmOverflow := true }

/-- R164: a block clears an alarm. -/
def clearAlarm (key : AlarmKey) (s : State) : State :=
  match findAlarm key s with
  | none => s
  | some r =>
    match r.state with
    | .clearedUnacked => s
    | .active =>
      if r.acknowledged then settleAlarmOverflow (dropAlarm r (reportEnabled key.kind s) s)
      else
        oweAlarmIfEnabled key { s with
          alarms := s.alarms.map (fun q => if q.key == key then { q with state := .clearedUnacked } else q) }

/-- The key of an alarm whose kind has no valve. -/
def alarmKey (k : AlarmKind) (subject : Nat) : AlarmKey := ⟨k, subject, none⟩

/-! ### Serials -/

/-- A fresh serial (log 17). -/
def nextSerial (s : State) : State := { s with serial := s.serial + 1 }

/-! ### Outcomes -/

/-- A command acts where it arises; one that does not arise in the present state leaves it as it stands (log 1). -/
def whenArises (arises : Bool) (act : State → State) (s : State) : Result :=
  .next (if arises then act s else s)

/-- R174: no telegram, request or arrival is taken while the unit is RESTARTING. -/
def isRestarting (s : State) : Bool :=
  match s.unit with
  | .restarting _ => true
  | _ => false

/-- R169: the unit takes requests in READY. -/
def isReady (s : State) : Bool :=
  match s.unit with
  | .ready => true
  | _ => false

/-- An arrival is taken in READY and RESET-PENDING, where it arises. -/
def arrival (arises : State → Bool) (act : State → State) (s : State) : Result :=
  whenArises (!isRestarting s && arises s) act s

end Sys2Proof.Machine
end

