-- ==== Sys2Proof/Machine/Pool.lean ====
section
/-! DEFINITION. The Telegram Pool: takings, charges, egress queues and holding (chapter 9). -/

namespace Sys2Proof.Machine

/-! ### Ports and charges -/

namespace Line

/-- What a port holds. -/
def port (l : Line) : Port → PortState
  | .o => l.portO
  | .n => l.portN
  | .s => l.portS

def setPort (l : Line) (p : Port) (x : PortState) : Line :=
  match p with
  | .o => { l with portO := x }
  | .n => { l with portN := x }
  | .s => { l with portS := x }

/-- R152: the charge count of a port. -/
def charge (l : Line) : Port → Nat
  | .o => l.chargeO
  | .n => l.chargeN
  | .s => l.chargeS

def setCharge (l : Line) (p : Port) (x : Nat) : Line :=
  match p with
  | .o => { l with chargeO := x }
  | .n => { l with chargeN := x }
  | .s => { l with chargeS := x }

end Line

namespace State

def port (s : State) (p : Port) : PortState := s.line.port p
def modPort (s : State) (p : Port) (f : PortState → PortState) : State :=
  { s with line := s.line.setPort p (f (s.line.port p)) }

end State

/-- The port of a branch. -/
def Branch.port : Branch → Port
  | .n => .n
  | .s => .s

/-- The branch of a field port. -/
def fieldBranch : Port → Option Branch
  | .o => none
  | .n => some .n
  | .s => some .s

/-- The other branch. -/
def Branch.other : Branch → Branch
  | .n => .s
  | .s => .n

/-- R143: a figure increases by 1 and stays at its limit. -/
def countUp (n : Nat) : Nat := if n < Config.figureLimit then n + 1 else n

/-! ### Takings and freeings (R151, R152, R154) -/

/-- R152: whether a taking with this charge may take a general buffer. -/
def mayTakeGeneral (charge : Option Port) (s : State) : Bool :=
  decide (0 < s.line.freeGeneral) &&
    match charge with
    | none => true
    | some p =>
      match s.settings.poolMode with
      | .shared => true
      | .partitioned => decide (s.line.charge p < Config.chargeLimit)

/-- A general buffer taken with a charge; none where none may be taken. -/
def takeGeneral (charge : Option Port) (s : State) : Option (Buffer × State) :=
  if mayTakeGeneral charge s then
    let line := { s.line with freeGeneral := s.line.freeGeneral - 1 }
    let line := match charge with
      | none => line
      | some p => line.setCharge p (line.charge p + 1)
    some (⟨.general, charge⟩, { s with line := line })
  else none

/-- R151: an URGENT telegram of the processor takes a general buffer if one is free, otherwise a reserve buffer. -/
def takeUrgent (s : State) : Option (Buffer × State) :=
  match takeGeneral none s with
  | some r => some r
  | none =>
    if 0 < s.line.freeReserve then
      some (⟨.reserve, none⟩, { s with line := { s.line with freeReserve := s.line.freeReserve - 1 } })
    else none

/-- R66: the copies of a send take their buffers together, or none does. The first of the list, which the copy to N gets,
takes before the second (log 36). -/
def takeUrgentMany : Nat → State → Option (List Buffer × State)
  | 0, s => some ([], s)
  | k + 1, s =>
    match takeUrgent s with
    | none => none
    | some (b, s) =>
      match takeUrgentMany k s with
      | none => none
      | some (bs, s) => some (b :: bs, s)

/-- R154, step 1: the buffer becomes free in its own class and leaves its port's charge count. -/
def releaseBuffer (b : Buffer) (s : State) : State :=
  let line := match b.cls with
    | .general => { s.line with freeGeneral := s.line.freeGeneral + 1 }
    | .reserve => { s.line with freeReserve := s.line.freeReserve + 1 }
  let line := match b.charge with
    | none => line
    | some p => line.setCharge p (line.charge p - 1)
  { s with line := line }

/-! ### Egress queues (R156, R157) -/

/-- A telegram joins the tail of a port's URGENT or ROUTINE queue. -/
def enqueue (p : Port) (urgent : Bool) (t : Telegram) (s : State) : State :=
  s.modPort p (fun q => if urgent then { q with urgent := q.urgent ++ [t] } else { q with routine := q.routine ++ [t] })

/-- R157: the ratio of a port, from the Yard Settings. -/
def portRatio (p : Port) (s : State) : Ratio :=
  match p with
  | .o => s.settings.ratioO
  | .n => s.settings.ratioN
  | .s => s.settings.ratioS

/-- R157: the number a ratio stands for; none under STRICT. -/
def Ratio.limit : Ratio → Option Nat
  | .strict => none
  | .eight => some 8
  | .four => some 4
  | .two => some 2

/-- R157: the transmitter takes a telegram and enters SENDING. -/
def PortState.sendUrgent (q : PortState) (t : Telegram) (rest : List Telegram) (run : Nat) : PortState :=
  { q with transmitter := .sending t, separation := .stopped, urgent := rest, runCount := run }

def PortState.sendRoutine (q : PortState) (t : Telegram) (rest : List Telegram) : PortState :=
  { q with transmitter := .sending t, separation := .stopped, routine := rest, runCount := 0 }

/-- R157: the choice of the next telegram by ratio service. With both queues empty the transmitter enters IDLE. -/
def PortState.choose (ratio : Ratio) (q : PortState) : PortState :=
  match q.urgent, q.routine with
  | [], [] => { q with transmitter := .idle, separation := .stopped }
  | [], t :: rest => q.sendRoutine t rest
  | t :: rest, [] => q.sendUrgent t rest 0
  | u :: us, r :: rs =>
    match ratio.limit with
    | none => q.sendUrgent u us q.runCount
    | some n => if q.runCount < n then q.sendUrgent u us (q.runCount + 1) else q.sendRoutine r rs

/-! ### Holding (R158 to R161) -/

/-- A HOLD or GO copy for a branch: source 240, destination 255; not sent where no buffer may be taken. -/
def controlCopy (kind : Nat) (body : List Byte) (p : Port) (s : State) : State :=
  match takeUrgent s with
  | none => s
  | some (b, s) => enqueue p true ⟨b, frame allStations ownAddress kind body, .plain⟩ s

/-- R159: one HOLD for N and one for S, and the repeat timer started from the duration carried. The copy to N takes its
buffer first (log 36). -/
def sendHold (s : State) : State :=
  let d := s.settings.holdDuration
  let s := controlCopy kindHold [octet d] .s (controlCopy kindHold [octet d] .n s)
  { s with line := { s.line with repeatTimer := .running (max 1 (d / 2)) } }

/-- R159: HOLDING is entered. -/
def enterHolding (s : State) : State := sendHold { s with line := { s.line with holding := .holding } }

/-- R161: HOLDING is left and GO is sent, the copy to N taking its buffer first (log 36); the takings of the GO copies are
followed by the holding test. -/
def leaveHolding (s : State) : State :=
  let s := { s with line := { s.line with holding := .notHolding, repeatTimer := .stopped } }
  let s := controlCopy kindGo [] .s (controlCopy kindGo [] .n s)
  if s.line.freeGeneral ≤ s.settings.holdMark then enterHolding s else s

/-- R158: the holding test. -/
def holdingTest (s : State) : State :=
  match s.line.holding with
  | .notHolding => if s.line.freeGeneral ≤ s.settings.holdMark then enterHolding s else s
  | .holding => if s.settings.goMark ≤ s.line.freeGeneral then leaveHolding s else s

end Sys2Proof.Machine
end

