-- ==== Sys2Proof/Machine/Orders.lean ====
section
/-! DEFINITION. The Order Unit's slots and pending lists: taking and placing orders, starting sends, clearing slots (chapter 4). -/

namespace Sys2Proof.Machine

/-- The order a slot holds. -/
def Slot.order? : Slot → Option Order
  | .empty => none
  | .bufferWait o => some o
  | .onLine o _ _ => some o
  | .awaitingReply o _ => some o

/-- R61: the code and operand of an order. -/
def Order.code (o : Order) : Option Nat := orderCode o.body
def Order.operand (o : Order) : Option Nat := operandOf o.body

/-- Whether an order came from the office. -/
def Order.fromOffice (o : Order) : Bool := o.origin == .office

/-- R64: SET and RELEASE are told by the order code (log 20). -/
def Order.isSet (o : Order) : Bool := o.code == some codeSet
def Order.isRelease (o : Order) : Bool := o.code == some codeRelease

/-- R43, R47, R53: an order of a valve has a body of 3 octets, code OPEN or CLOSE, and an operand from 0 to 6. -/
def Order.valveOrder (code : Nat) (o : Order) : Option Nat :=
  if o.body.length = 3 ∧ o.code = some code then o.operand.filter (· ≤ 6) else none

/-- The orders of a station in the Order Unit, slot and pending list. -/
def Station.orders (st : Station) : List Order := st.slot.order?.toList ++ st.pendingList

/-- R43: ordered states. -/
inductive OrderedState where
  | none | opened | close
deriving DecidableEq, Repr

/-- R43: whether an order is an OPEN or a CLOSE of the valve. -/
def Order.ofValve (valve : Nat) (o : Order) : Bool :=
  o.valveOrder codeOpen == some valve || o.valveOrder codeClose == some valve

/-- The order that entered the Order Unit most recently. -/
def latestOrder : List Order → Option Order
  | [] => none
  | o :: rest =>
    match latestOrder rest with
    | none => some o
    | some q => if o.entered < q.entered then some q else some o

/-- R43: the ordered state of a valve of a valve station. -/
def orderedState (station valve : Nat) (s : State) : OrderedState :=
  match s.station station with
  | none => .none
  | some st =>
    match latestOrder (st.orders.filter (Order.ofValve valve)) with
    | none => .none
    | some o => if o.code == some codeOpen then .opened else .close

/-- R53, R63, R64, R76: SUPERSEDED owed for an office order. -/
def oweSuperseded (o : Order) (cause : SupersessionCause) (s : State) : State :=
  oweFull (.superseded o.station o.code o.operand cause) s

/-- R64: an order replaced or removed owes SUPERSEDED if it is an office order; an automatic one is dropped. -/
def supersede (cause : SupersessionCause) (s : State) (o : Order) : State :=
  if o.fromOffice then oweSuperseded o cause s else s

/-- R48, R63, R69, R82: REFUSAL owed for an office order. -/
def oweRefusal (station : Nat) (body : List Byte) (reason : RefusalReason) (s : State) : State :=
  oweFull (.refusal station (orderCode body) (operandOf body) reason) s

/-- R153: a claim leaves the list. -/
def withdrawClaim (c : Claim) (s : State) : State := { s with claims := s.claims.filter (· != c) }

/-- R70, R74, R76: the slot empties; a waiting send's claim is withdrawn. -/
def emptySlot (a : Nat) (s : State) : State :=
  withdrawClaim (.send a) (s.modStation a (fun st => { st with slot := .empty }))

/-- R66: with the slot EMPTY, the head of the pending list is taken into it for its first send. The send seeks its
buffers at ORDER_SEND (log 4). -/
def Station.takeHead (st : Station) : Station :=
  match st.slot, st.pendingList with
  | .empty, o :: rest => { st with slot := .bufferWait o, pendingList := rest }
  | _, _ => st

def serve (a : Nat) (s : State) : State := s.modStation a Station.takeHead

/-- R63: whether the pending list of a configured station holds fewer than 4 orders. -/
def listHasRoom (st : Station) : Bool := decide (st.pendingList.length < Config.pendingOrders)

/-- R63: an office order that has passed its checks joins the tail of the pending list, and is at once taken into the
slot if that is EMPTY. -/
def placeOffice (a : Nat) (body : List Byte) (s : State) : State :=
  let o : Order := ⟨.office, a, body, 0, s.serial⟩
  serve a ((nextSerial s).modStation a (fun st => { st with pendingList := st.pendingList ++ [o] }))

/-! ### Automatic orders (R64) -/

/-- The first order satisfying a test, and the list without it. -/
def removeFirst (p : Order → Bool) : List Order → Option (Order × List Order)
  | [] => none
  | o :: rest =>
    if p o then some (o, rest)
    else (removeFirst p rest).map (fun r => (r.1, o :: r.2))

/-- R64: room in a list of 4: the oldest office order goes, with SUPERSEDED; with none, the oldest automatic order. -/
def makeRoom (list : List Order) (s : State) : List Order × State :=
  if list.length < Config.pendingOrders then (list, s)
  else
    match removeFirst Order.fromOffice list with
    | some (o, rest) => (rest, oweSuperseded o .governor s)
    | none => (list.drop 1, s)

/-- A pending list written. -/
def setList (a : Nat) (list : List Order) (s : State) : State :=
  s.modStation a (fun st => { st with pendingList := list })

/-- R64, R56: an automatic CLOSE enters at the head; from a full list the order at the tail goes first. The slot takes
it when the whole action of the cause is complete (R51), so the caller serves. -/
def placeClose (a valve : Nat) (cause : SupersessionCause) (s : State) : State :=
  match s.station a with
  | none => s
  | some st =>
    let o : Order := ⟨.interlock, a, orderBody codeClose valve, 0, s.serial⟩
    let s := nextSerial s
    let full := decide (Config.pendingOrders ≤ st.pendingList.length)
    let s := if full then (st.pendingList.getLast?.toList).foldl (supersede cause) s else s
    setList a (o :: (if full then st.pendingList.dropLast else st.pendingList)) s

/-- R64: a SET takes the place of the waiting SET nearest the head, the others being removed; without one, the tail. -/
def replaceSets (o : Order) : List Order → Bool → List Order
  | [], placed => if placed then [] else [o]
  | q :: rest, placed =>
    if q.isSet then (if placed then replaceSets o rest true else o :: replaceSets o rest true)
    else q :: replaceSets o rest placed

/-- R64: an automatic SET is placed, and taken if the slot is EMPTY. -/
def placeSet (a district operand : Nat) (s : State) : State :=
  match s.station a with
  | none => s
  | some st =>
    let o : Order := ⟨.scheduler district, a, orderBody codeSet operand, 0, s.serial⟩
    let s := (st.pendingList.filter Order.isSet).foldl (supersede .governor) (nextSerial s)
    if st.pendingList.any Order.isSet then serve a (setList a (replaceSets o st.pendingList false) s)
    else
      let m := makeRoom st.pendingList s
      serve a (setList a (m.1 ++ [o]) m.2)

/-- R64: an automatic RELEASE removes every automatic SET and RELEASE waiting, and joins the tail. -/
def placeRelease (a district : Nat) (s : State) : State :=
  match s.station a with
  | none => s
  | some st =>
    let o : Order := ⟨.scheduler district, a, orderBody codeRelease 0, 0, s.serial⟩
    let kept := st.pendingList.filter (fun q => !(!q.fromOffice && (q.isSet || q.isRelease)))
    let m := makeRoom kept (nextSerial s)
    serve a (setList a (m.1 ++ [o]) m.2)

end Sys2Proof.Machine
end

