-- ==== Sys2Proof/Machine/Correction.lean ====
section
/-! DEFINITION. The vapour lookup and the standard correction (R12, R28 to R30). -/

namespace Sys2Proof.Machine

/-- R12, step 1: the lookup's own copy of t, clamped to 0 to 4,000. -/
def lookupTemperature (t : Int) : Nat := min 4000 t.toNat

/-- R12: an entry as read: an empty one reads 0 Pa, with the incomplete mark. -/
def vapourEntry (s : State) (i : Nat) : Nat × Bool :=
  match tableGet s.vapour i with
  | some e => (e, false)
  | none => (0, true)

/-- R12: the vapour pressure at t and the incomplete mark. With no hundredths only the entry of the whole degree is
read (R12 note 1), which is also the case of 4,000. -/
def vapourLookup (t : Int) (s : State) : Nat × Bool :=
  let t := lookupTemperature t
  let i := t / 100
  let f := t % 100
  let low := vapourEntry s i
  if f = 0 then low
  else
    let high := vapourEntry s (i + 1)
    (rounded (low.1 * (100 - f) + high.1 * f) 100, low.2 || high.2)

/-- The engineering value of a named point whose entry is loaded, quality GOOD and value within the range. -/
def goodValue (n : Option Nat) (lo hi : Int) (s : State) : Option Int :=
  match n.bind s.point with
  | none => none
  | some p =>
    match p.quality, p.value with
    | .good, some v => if lo ≤ v ∧ v ≤ hi then some v else none
    | _, _ => none

/-- A value resolved from a point, with its fallback and whether the fallback was taken. -/
def resolve (taken : Option Int) (fallback : Int) : Int × Bool :=
  match taken with
  | some v => (v, false)
  | none => (fallback, true)

/-- R28: the barometer, as it stands. -/
def barometer (s : State) : Int × Bool := resolve (goodValue s.settings.barometerPoint 85000 110000 s) 101325

/-- R30: the rounded quotient. B + P − e and 27,315 + t are positive in the ranges the rule gives. -/
def standardVolume (v : Nat) (b p t : Int) (e : Nat) : Nat :=
  rounded (v * (b + p - e).toNat * 28815) (101325 * (27315 + t).toNat)

/-- R30: the standard correction of a volume, with the barometer and vapour fallbacks it records. -/
def standardCorrection (v : Nat) (p t : Int) (s : State) : Nat × Bool :=
  let b := barometer s
  let e := vapourLookup t s
  (standardVolume v b.1 p t e.1, b.2 || e.2)

end Sys2Proof.Machine
end

