-- ==== Sys2Proof/Machine/Accounts.lean ====
section
/-! DEFINITION. The Account Unit's hand-overs: counting, rates, and what an open hour takes (R107 to R112, R114). -/

namespace Sys2Proof.Machine

/-! ### The open hour (R114) -/

/-- The open hour's records changed; a hand-over that finds no open hour has no effect (R114). -/
def modOpenHour (f : Hour → Hour) (s : State) : State :=
  { s with currentBook := s.currentBook.map (fun b =>
      { b with hours := b.hours.map (fun r => if r.state = .opened then f r else r) }) }

/-- One district record of an hour changed. -/
def Hour.modDistrict (d : Nat) (f : DistrictHour → DistrictHour) (r : Hour) : Hour :=
  match d with
  | 0 => r
  | i + 1 => { r with districts := vectorModify r.districts i f }

/-- One make record of an hour changed. -/
def Hour.modMake (m : Nat) (f : MakeHour → MakeHour) (r : Hour) : Hour :=
  match m with
  | 0 => r
  | i + 1 => { r with makes := vectorModify r.makes i f }

/-- Volume, energy and flags added to the record of a target. -/
def Hour.add (target : MeterTarget) (volume energy : Nat) (flags : HourFlags) (r : Hour) : Hour :=
  match target with
  | .outlet d => r.modDistrict d (fun q =>
      { q with volume := q.volume + volume, energy := q.energy + energy, flags := q.flags.union flags })
  | .make m => r.modMake m (fun q =>
      { q with volume := q.volume + volume, energy := q.energy + energy, flags := q.flags.union flags })

/-- Flags set on every record of an hour. -/
def Hour.flagAll (flags : HourFlags) (r : Hour) : Hour :=
  { r with
    districts := r.districts.map (fun q => { q with flags := q.flags.union flags })
    makes := r.makes.map (fun q => { q with flags := q.flags.union flags }) }

/-- The lesser of a value and one held, an absent one taking the value. -/
def lesser {α : Type} [Min α] (held : Option α) (v : α) : Option α :=
  match held with
  | none => some v
  | some w => some (min w v)

/-- The greater of a value and one held, an absent one taking the value. -/
def greater {α : Type} [Max α] (held : Option α) (v : α) : Option α :=
  match held with
  | none => some v
  | some w => some (max w v)

/-- R114: a district's minimum and maximum active setpoint widen to include a value. -/
def DistrictHour.widen (v : Nat) (q : DistrictHour) : DistrictHour :=
  { q with minActive := lesser q.minActive v, maxActive := greater q.maxActive v }

/-- R92, R114: a change of a district's active setpoint. -/
def handActive (d v : Nat) (s : State) : State := modOpenHour (Hour.modDistrict d (DistrictHour.widen v)) s

/-- R89, R114: a GOOD tell-tale value of a district. -/
def handTellTale (d : Nat) (v : Int) (s : State) : State :=
  modOpenHour (Hour.modDistrict d (fun q => { q with minTellTale := lesser q.minTellTale v })) s

/-- R36, R39, R40, R114: a holder became blind, or changed its reckoning state. -/
def handStockPartial (s : State) : State :=
  modOpenHour (Hour.flagAll { HourFlags.clear with stockPartial := true }) s

/-! ### Meters (R107 to R112) -/

/-- Volume, energy and flags go to the open record of the meter's target, or while the clock is INVALID to the meter's
own unclocked accumulators (R107, R108, R111). -/
def account (m : Nat) (r : Meter) (volume energy : Nat) (flags : HourFlags) (s : State) : State :=
  if s.clock.valid then modOpenHour (Hour.add r.target volume energy flags) (s.putMeter m r)
  else s.putMeter m { r with
    unclockedVolume := r.unclockedVolume + volume
    unclockedEnergy := r.unclockedEnergy + energy
    unclockedFlags := r.unclockedFlags.union flags }

/-- R109: the increment's pressure: the named point's value, otherwise the fixed pressure; a fallback is recorded only
when a point is named. -/
def meterPressure (r : Meter) (s : State) : Int × Bool :=
  let p := resolve (goodValue r.pressurePoint 0 10000 s) r.fixedPressure
  (p.1, p.2 && r.pressurePoint.isSome)

/-- R109: the increment's temperature: the named point's value, otherwise 1,500. -/
def meterTemperature (r : Meter) (s : State) : Int × Bool :=
  let t := resolve (goodValue r.temperaturePoint (-2000) 5000 s) 1500
  (t.1, t.2 && r.temperaturePoint.isSome)

/-- R110: the calorific value, and whether the declared one was used. -/
def calorificValue (s : State) : Nat × Bool :=
  let cv := resolve (goodValue s.settings.calorimeterPoint 10000 30000 s) s.settings.declaredCv
  (cv.1.toNat, cv.2)

/-- R109, R110: the standard litres, energy and flags of an increment of `delta` pulses. -/
def increment (r : Meter) (delta : Nat) (s : State) : Nat × Nat × HourFlags :=
  let p := meterPressure r s
  let t := meterTemperature r s
  let v := standardCorrection (delta * r.pulseWeight) p.1 t.1 s
  let cv := calorificValue s
  (v.1, v.1 * cv.1,
    { HourFlags.clear with cvDeclared := cv.2, correctionDegraded := p.2 || t.2 || v.2 })

/-- R108: the delta of a count, modulo 65,536. -/
def countDelta (c last : Nat) : Nat := (c + 65536 - last) % 65536

/-- R108: a GOOD COUNT value. A delta of 0 adds an increment of 0 with its flags (log 39). -/
def takeCount (m c : Nat) (s : State) : State :=
  match s.meter m with
  | none => s
  | some r =>
    let delta := countDelta c r.lastCount
    let taken := { r with lastCount := c, lastCountValid := true }
    if !r.lastCountValid then s.putMeter m taken
    else if r.deltaLimit < delta then
      account m taken 0 0 { HourFlags.clear with countGap := true } (raiseAlarm (alarmKey .meterJump m) (s.putMeter m taken))
    else
      let inc := increment r delta s
      clearAlarm (alarmKey .meterJump m) (account m taken inc.1 inc.2.1 inc.2.2 s)

/-- R107: a COUNT point went STALE or NONE: the last count becomes invalid and COUNT-GAP is set. -/
def loseCount (m : Nat) (s : State) : State :=
  match s.meter m with
  | none => s
  | some r => account m { r with lastCountValid := false } 0 0 { HourFlags.clear with countGap := true } s

/-- R112: the rate of a GOOD PERIOD value. -/
def meterRate (pulseWeight p : Nat) : Nat := if p = 0 then 0 else rounded (pulseWeight * 360) p

/-- R112: a GOOD PERIOD value forms the rate; the open record's peak rate of an OUTLET meter takes the greater. -/
def takePeriod (m p : Nat) (s : State) : State :=
  match s.meter m with
  | none => s
  | some r =>
    let rate := meterRate r.pulseWeight p
    let s := s.putMeter m { r with rate := rate }
    match r.target with
    | .make _ => s
    | .outlet d => modOpenHour (Hour.modDistrict d (fun q => { q with peakRate := max q.peakRate rate })) s

/-- R7: a point update: the point's number and kind, its value, quality, and mark. -/
structure PointUpdate where
  number : Nat
  kind : PointKind
  value : Option Int
  quality : Quality
  fromEntry : Bool
deriving DecidableEq, Repr

/-- R107: the COUNT role of one meter. -/
def meterCountUpdate (u : PointUpdate) (m : Nat) (s : State) : State :=
  match u.fromEntry, u.quality, u.value with
  | true, .good, some v => takeCount m v.toNat s
  | false, .stale, _ => loseCount m s
  | false, .none, _ => loseCount m s
  | _, _, _ => s

/-- R107: the PERIOD role of one meter. -/
def meterPeriodUpdate (u : PointUpdate) (m : Nat) (s : State) : State :=
  match u.fromEntry, u.quality, u.value with
  | true, .good, some v => takePeriod m v.toNat s
  | _, _, _ => s

/-- R107: a point update acts on one meter in the roles that name the point, when the point is of the role's kind. -/
def meterUpdate (u : PointUpdate) (s : State) (m : Nat) : State :=
  match s.meter m with
  | none => s
  | some r =>
    let s := if r.countPoint = u.number ∧ u.kind = .count then meterCountUpdate u m s else s
    if r.periodPoint = some u.number ∧ u.kind = .period then meterPeriodUpdate u m s else s

/-- R107: each meter that names the point acts, in ascending meter number. -/
def accountUpdate (u : PointUpdate) (s : State) : State := meterNumbers.foldl (meterUpdate u) s

end Sys2Proof.Machine
end

