-- ==== Sys2Proof/Machine/Scheduler.lean ====
section
/-! DEFINITION. The Pressure Scheduler: supply limits, the step computation, its orders and their endings (R83, R85 to R97). -/

namespace Sys2Proof.Machine

/-- R99: a SETPOINT report on a district is owed. -/
def oweSetpoint (d : Nat) (s : State) : State := oweReference (.district d) s

/-- R92: the active setpoint written; a change is handed to the Account Unit. -/
def writeActive (d v : Nat) (s : State) : State :=
  match s.district d with
  | none => s
  | some r =>
    if r.active = some v then s
    else handActive d v (s.putDistrict d { r with active := some v })

/-! ### Automatic orders of the scheduler -/

/-- R65, R69, R83: an automatic SET failed: ORDER-FAILED is raised for the district that issued it, if `raise`, and its
set-failed flag is set while it still names the station as its governor. -/
def setFailed (raise : Bool) (d station : Nat) (s : State) : State :=
  let s := if raise then raiseAlarm (alarmKey .orderFailed d) s else s
  match s.district d with
  | none => s
  | some r => if r.governor = station then s.putDistrict d { r with setFailed := true } else s

/-- R93, R64, R65: an automatic SET of a value is issued to the district's governor station. -/
def issueSet (d v : Nat) (s : State) : State :=
  match s.district d with
  | none => s
  | some r =>
    match s.station r.governor with
    | none => setFailed true d r.governor s
    | some _ => placeSet r.governor d v s

/-- R81, R64, R65: one automatic RELEASE is placed for the district's governor station. -/
def issueRelease (d : Nat) (s : State) : State :=
  match s.district d with
  | none => s
  | some r =>
    match s.station r.governor with
    | none => raiseAlarm (alarmKey .orderFailed d) s
    | some _ => placeRelease r.governor d s

/-- The distance between two numbers. -/
def distance (a b : Nat) : Nat := max a b - min a b

/-- R93: whether the active setpoint is to be sent. -/
def sendIsCalledFor (r : District) (v : Nat) : Bool :=
  r.supplied &&
    match r.lastSent with
    | none => true
    | some w => r.setFailed || decide (max 1 r.deadband ≤ distance v w)

/-- R93: the send decision. -/
def sendDecision (d : Nat) (s : State) : State :=
  match s.district d with
  | none => s
  | some r =>
    match r.active with
    | none => s
    | some v => if sendIsCalledFor r v then issueSet d v s else s

/-! ### The supply limit (R94 to R97) -/

/-- R94: what a holder contributes to a district, if it supplies it. -/
def contribution (d drop h : Nat) (s : State) : Option Nat :=
  match s.holder h with
  | none => none
  | some r =>
    let routed : Bool := match h with
      | 0 => false
      | i + 1 => (s.outletSets[i]?).any (fun set => set.has d)
    if r.inReckoning ∧ r.condition ≠ .landed ∧ routed then r.pressure.map (fun p => p - drop) else none

/-- R94: the supply limit and whether the district is SUPPLIED. -/
def supplyOf (d drop : Nat) (s : State) : Nat × Bool :=
  let parts := holderNumbers.filterMap (fun h => contribution d drop h s)
  (parts.foldl max 0, !parts.isEmpty)

/-- R97: what a change of supply state brings about. -/
def supplyStateChanged (d : Nat) (supplied : Bool) (s : State) : State :=
  let key := alarmKey .districtUnsupplied d
  oweSetpoint d (if supplied then clearAlarm key s else raiseAlarm key s)

/-- R96: the immediate clamp of a district in AUTO whose active setpoint stands above its new limit. -/
def clampActive (d : Nat) (s : State) : State :=
  match s.district d with
  | none => s
  | some r =>
    match r.active with
    | none => s
    | some v =>
      if r.mode = .auto ∧ r.supplyLimit < v then
        let s := writeActive d r.supplyLimit s
        let s := if r.supplyLimit < r.minimum ∧ r.supplied then raiseAlarm (alarmKey .districtShort d) s else s
        sendDecision d s
      else s

/-- R95: one district's supply limit and supply state formed afresh. A recomputation that yields the values already
held changes nothing. -/
def recomputeDistrict (s : State) (d : Nat) : State :=
  match s.district d with
  | none => s
  | some r =>
    let supply := supplyOf d r.drop s
    if supply = (r.supplyLimit, r.supplied) then s
    else
      let s := s.putDistrict d { r with supplyLimit := supply.1, supplied := supply.2 }
      let s := if supply.2 = r.supplied then s else supplyStateChanged d supply.2 s
      clampActive d s

/-- R95: every loaded district, in ascending number. -/
def recomputeSupply (s : State) : State := districtNumbers.foldl recomputeDistrict s

/-- R45, R94, R95: the Valve Interlock Unit hands over a holder's confirmed outlet set. -/
def writeOutletSet (h : Nat) (set : DistrictSet) (s : State) : State :=
  match h with
  | 0 => s
  | i + 1 => { s with outletSets := s.outletSets.setIfInBounds i set }

def handOutletSet (h : Nat) (set : DistrictSet) (s : State) : State := recomputeSupply (writeOutletSet h set s)

/-! ### The step computation (R87 to R93) -/

/-- R87: the profile pressure at a minute. The breakpoint before the minute wraps to yesterday's last, the one after it
to tomorrow's first; times are taken 1,440 later so that none is negative. No run reaches an empty profile in AUTO. -/
def profilePressure (profile : List Breakpoint) (m : Nat) : Nat :=
  match profile with
  | [] => 0
  | [b] => b.pressure
  | first :: rest =>
    let a := match ((first :: rest).filter (fun b => b.minute ≤ m)).getLast? with
      | some b => (b.minute + 1440, b.pressure)
      | none => let b := rest.getLastD first; (b.minute, b.pressure)
    let b := match (first :: rest).find? (fun b => m < b.minute) with
      | some b => (b.minute + 1440, b.pressure)
      | none => (first.minute + 2880, first.pressure)
    let m := m + 1440
    rounded (a.2 * (b.1 - m) + b.2 * (m - a.1)) (b.1 - a.1)

/-- R88: the rate of the meter the district names, if it is an OUTLET meter of this district; otherwise 0. -/
def districtRate (d : Nat) (r : District) (s : State) : Nat :=
  match r.outletMeter.bind s.meter with
  | none => 0
  | some q => if q.target = .outlet d then q.rate else 0

/-- R88: the load raise. -/
def loadRaise (d : Nat) (r : District) (s : State) : Nat :=
  min r.raiseCap ((districtRate d r s - r.kneeRate) * r.loadFactor / 1000)

/-- R89: the new correction. -/
def newCorrection (r : District) (s : State) : Nat :=
  match r.tellTalePoint with
  | none => 0
  | some n =>
    match s.point n with
    | none => r.correction
    | some p =>
      match p.quality, p.value with
      | .good, some v =>
        if v < r.tellTaleMinimum then
          min r.correctionCap (r.correction + ((r.tellTaleMinimum : Int) - v).toNat * r.gain / 100)
        else r.correction - r.decay
      | _, _ => r.correction

/-- R91: the sum clamped into the district's bounds. -/
def boundedTarget (r : District) (sum : Nat) : Nat := max r.minimum (min r.maximum sum)

/-- R91: DISTRICT-SHORT judged for a SUPPLIED district. -/
def judgeShort (d : Nat) (r : District) (bounded : Nat) (s : State) : State :=
  if !r.supplied then s
  else if r.supplyLimit < bounded ∧ r.supplyLimit < r.minimum then raiseAlarm (alarmKey .districtShort d) s
  else clearAlarm (alarmKey .districtShort d) s

/-- R92: the slewed value. -/
def slewed (r : District) (target : Nat) : Nat :=
  match r.active with
  | none => target
  | some v =>
    if v < target then min target (v + r.slew)
    else if target < v then max target (v - r.slew)
    else target

/-- R92: the new active setpoint. -/
def newActive (r : District) (target : Nat) : Nat :=
  min r.maximum (min r.supplyLimit (max (slewed r target) r.minimum))

/-- R87 to R93: the step computation of a district in AUTO. -/
def stepComputation (d : Nat) (s : State) : State :=
  match s.district d with
  | none => s
  | some r =>
    let pp := profilePressure r.activeProfile (s.clock.timeOfDay / 60)
    let c := newCorrection r s
    let bounded := boundedTarget r (pp + loadRaise d r s + c + r.fogRaise)
    let target := min bounded r.supplyLimit
    let r := { r with correction := c, lastTarget := some target }
    let s := judgeShort d r bounded (s.putDistrict d r)
    sendDecision d (writeActive d (newActive r target) s)

/-- R85, order 1: a pending profile is promoted. -/
def promoteProfile (r : District) : District :=
  if r.nextPending then
    { r with
      activeProfile := r.nextProfile, nextProfile := [], nextPending := false
      generation := (r.generation + 1) % 65536 }
  else r

/-- R85: a step boundary, with the step timer restarted at the step period. -/
def stepBoundary (d : Nat) (s : State) : State :=
  match s.district d with
  | none => s
  | some r =>
    let r := { promoteProfile r with stepTimer := .running r.stepPeriod }
    let s := s.putDistrict d r
    if r.mode = .auto then stepComputation d s else s

/-! ### Endings (R83) -/

/-- R83: the governor view, written from a REPLY body of 7 octets. -/
def governorView (reply : List Byte) (r : District) : District :=
  if reply.length = 7 then
    { r with reportedSetpoint := some (field reply 4 2), releasedMark := boolOf (octetAt reply 6) }
  else r

/-- R83: a completed SET or RELEASE, taken by a district that still names the station as its governor. -/
def governorCompletion (d station : Nat) (o : Order) (reply : List Byte) (s : State) : State :=
  match s.district d with
  | none => s
  | some r =>
    if r.governor ≠ station then s
    else
      let r := governorView reply r
      if o.isSet then
        match replyResult reply, o.operand with
        | .done, some v =>
          let changed := r.lastSent ≠ some v
          let s := s.putDistrict d { r with lastSent := some v, setFailed := false }
          let s := if r.mode = .auto then s else writeActive d v s
          if changed then oweSetpoint d s else s
        | _, _ => s.putDistrict d { r with setFailed := true }
      else s.putDistrict d r

/-- R72: ORDER-FAILED by the result of a completed automatic SET or RELEASE. -/
def judgeOrderFailed (d : Nat) (reply : List Byte) (s : State) : State :=
  match replyResult reply with
  | .done => clearAlarm (alarmKey .orderFailed d) s
  | _ => raiseAlarm (alarmKey .orderFailed d) s

/-- R89: a tell-tale update from an entry of quality GOOD hands its value to the Account Unit. -/
def tellTaleUpdate (u : PointUpdate) (s : State) (d : Nat) : State :=
  match s.district d with
  | none => s
  | some r =>
    if r.tellTalePoint = some u.number then
      match u.fromEntry, u.quality, u.value with
      | true, .good, some v => handTellTale d v s
      | _, _, _ => s
    else s

/-- R7, R89: every district that names the point as its tell-tale. -/
def schedulerUpdate (u : PointUpdate) (s : State) : State := districtNumbers.foldl (tellTaleUpdate u) s

end Sys2Proof.Machine
end

