-- ==== Sys2Proof/Machine/Interlock.lean ====
section
/-! DEFINITION. The Valve Interlock Unit: causes, the closure sequence, automatic closes and their endings (R45, R46, R51 to R59). -/

namespace Sys2Proof.Machine

/-! ### Confirmed states (R44 to R46) -/

/-- R45: the confirmed outlet set formed afresh; a set that differs from the one held is written and handed over. -/
def formOutletSet (h : Nat) (s : State) : State :=
  match s.routing h with
  | none => s
  | some q =>
    let set := outletSetOf q.confirmed
    if set = q.outletSet then s
    else handOutletSet h set (s.putRouting h { q with outletSet := set })

/-- R46: CLOSE-FAILED is cleared for each valve that now reads CLOSED, in ascending valve number (log 34). -/
def clearCloseFailed (h : Nat) (confirmed : Vector ValveState 7) (s : State) : State :=
  [0, 1, 2, 3, 4, 5, 6].foldl (fun s v =>
    if confirmed[v]? = some .closed then clearAlarm ⟨.closeFailed, h, some v⟩ s else s) s

/-- R46: a REPLY body of 11 octets gives the seven confirmed states; another length gives none. -/
def takeValveStates (h : Nat) (body : List Byte) (s : State) : State :=
  if body.length = 11 then
    match s.routing h with
    | none => s
    | some q =>
      let confirmed := Vector.ofFn (fun i : Fin 7 => valveStateOf (body.getD (4 + i.val) 0))
      clearCloseFailed h confirmed (formOutletSet h (s.putRouting h { q with confirmed := confirmed }))
  else s

/-! ### The closure sequence (R54 to R57) -/

/-- R57: whether an ending other than DONE is a success: the valve reads CLOSED. -/
def valveReadsClosed (q : Routing) (v : Nat) : Bool := q.confirmed[v]? == some .closed

/-- R57: the outcome of a close, its entry already removed. A failed close makes the valve UNKNOWN and raises
CLOSE-FAILED. -/
def closeOutcome (h v : Nat) (success : Bool) (s : State) : State :=
  if success then s
  else
    match s.routing h with
    | none => s
    | some q =>
      let s := s.putRouting h { q with confirmed := q.confirmed.setIfInBounds v .unknown }
      raiseAlarm ⟨.closeFailed, h, some v⟩ (formOutletSet h s)

/-- The closure sequence and the entry in hand written. -/
def setSequence (h : Nat) (sequence : List Closure) (inHand : Option Nat) (s : State) : State :=
  match s.routing h with
  | none => s
  | some q => s.putRouting h { q with sequence := sequence, inHand := inHand }

/-- R56: the entries are taken from the front. An unforced entry whose valve reads CLOSED is removed without an order; an
entry for an unconfigured station ends at once (R57); the first other entry is handed over as an automatic CLOSE. -/
def handFront (h station : Nat) : List Closure → State → State
  | [], s => setSequence h [] none s
  | c :: rest, s =>
    match s.routing h with
    | none => s
    | some q =>
      if !c.forced && valveReadsClosed q c.valve then handFront h station rest s
      else
        match s.station station with
        | none => handFront h station rest (closeOutcome h c.valve (valveReadsClosed q c.valve) (setSequence h rest none s))
        | some _ => placeClose station c.valve c.cause (setSequence h (c :: rest) (some s.serial) s)

/-- R56: the front entry is handed over, unless one is in hand. -/
def handOver (h : Nat) (s : State) : State :=
  match s.holder h, s.routing h with
  | some r, some q => if q.inHand.isSome then s else handFront h r.valveStation q.sequence s
  | _, _ => s

/-- R57: the ending of the close in hand, told by its order's serial (log 17). `done` is a matching REPLY of result DONE;
`resume` hands the next entry over. An ending of any other automatic CLOSE is not taken (R59). -/
def closeEnded (h : Nat) (o : Order) (done resume : Bool) (s : State) : State :=
  match s.routing h with
  | none => s
  | some q =>
    if q.inHand = some o.entered then
      match q.sequence with
      | [] => s
      | c :: rest =>
        let s := closeOutcome h c.valve (done || valveReadsClosed q c.valve) (setSequence h rest none s)
        if resume then handOver h s else s
    else s

/-- R58: every entry of the sequence ends as "station dropped", in order. -/
def dropSequence (h : Nat) : List Closure → State → State
  | [], s => setSequence h [] none s
  | c :: rest, s =>
    match s.routing h with
    | none => s
    | some q => dropSequence h rest (closeOutcome h c.valve (valveReadsClosed q c.valve) (setSequence h rest none s))

/-! ### Causes (R51 to R55) -/

/-- R51: the valves whose OPENs a cause withdraws. BLIND withdraws those of the outlets too, by R50 and R60; R51's table
names the inlet alone (log 33). -/
def withdrawnValves : SupersessionCause → List Nat
  | .top => [0]
  | .blind => [0, 1, 2, 3, 4, 5, 6]
  | .landed => [1, 2, 3, 4, 5, 6]
  | .low => [1, 2, 3, 4, 5, 6]
  | .out => [0, 1, 2, 3, 4, 5, 6]
  | .governor => []
  | .dropped => []

/-- R51: the valves a cause adds to the closure sequence. -/
def closedValves : SupersessionCause → List Nat
  | .top => [0]
  | .blind => [0]
  | .landed => [1, 2, 3, 4, 5, 6]
  | .low => []
  | .out => []
  | .governor => []
  | .dropped => []

/-- Whether an order is an office OPEN of one of the valves. -/
def Order.opensOneOf (valves : List Nat) (o : Order) : Bool :=
  o.fromOffice && (o.valveOrder codeOpen).any (fun v => valves.contains v)

/-- R52: an outstanding OPEN of a named valve is abandoned, with SUPERSEDED owed. Answers its valve. -/
def abandonOpen (station : Nat) (cause : SupersessionCause) (s : State) : Option Nat × State :=
  match (s.station station).bind (fun st => st.slot.order?) with
  | none => (none, s)
  | some o =>
    if o.opensOneOf (withdrawnValves cause) then
      (o.valveOrder codeOpen, oweSuperseded o cause (emptySlot station s))
    else (none, s)

/-- R53: every waiting OPEN of a named valve is removed, head to tail, with SUPERSEDED owed for each. -/
def removeOpens (station : Nat) (cause : SupersessionCause) (s : State) : State :=
  match s.station station with
  | none => s
  | some st =>
    let named := Order.opensOneOf (withdrawnValves cause)
    let s := setList station (st.pendingList.filter (fun o => !named o)) s
    (st.pendingList.filter named).foldl (fun s o => oweSuperseded o cause s) s

/-- R52 and R53 together. -/
def withdrawOpens (station : Nat) (cause : SupersessionCause) (s : State) : Option Nat × State :=
  let x := abandonOpen station cause s
  (x.1, removeOpens station cause x.2)

/-- R54, R55: a new entry goes in valve-number order behind the entry in hand. -/
def insertClosure (c : Closure) : List Closure → List Closure
  | [] => [c]
  | d :: rest => if c.valve < d.valve then c :: d :: rest else d :: insertClosure c rest

def addClosure (inHand : Bool) (c : Closure) (sequence : List Closure) : List Closure :=
  match inHand, sequence with
  | true, d :: rest => d :: insertClosure c rest
  | _, _ => insertClosure c sequence

/-- R55: one valve the cause names, by the table. -/
def addValve (cause : SupersessionCause) (abandoned : Option Nat) (q : Routing) (v : Nat) : Routing :=
  let forced := abandoned == some v
  if q.sequence.any (fun c => c.valve == v) then
    { q with sequence := q.sequence.map (fun c => if c.valve == v && forced then { c with forced := true } else c) }
  else if !forced && valveReadsClosed q v then q
  else { q with sequence := addClosure q.inHand.isSome ⟨v, forced, cause⟩ q.sequence }

/-- R55: the valves a cause names, in ascending number. -/
def addClosures (h : Nat) (cause : SupersessionCause) (abandoned : Option Nat) (s : State) : State :=
  match s.routing h with
  | none => s
  | some q => s.putRouting h ((closedValves cause).foldl (addValve cause abandoned) q)

/-- R51: a cause acts as one whole: R52, R53, R55, R56; only then does the Order Unit send from the slot. -/
def interlockCause (h : Nat) (cause : SupersessionCause) (s : State) : State :=
  match s.holder h with
  | none => s
  | some r =>
    let x := withdrawOpens r.valveStation cause s
    let s := addClosures h cause x.1 x.2
    let s := if (closedValves cause).isEmpty then s else handOver h s
    serve r.valveStation s

/-- R42, R59: the OUT withdrawal applied to a station that has become a valve station. -/
def withdrawFromNewStation (station : Nat) (s : State) : State := serve station (withdrawOpens station .out s).2

/-- R48: why an office OPEN of a valve is refused, by the first reason that applies. -/
def openRefusal (r : Holder) (valve : Nat) : Option RefusalReason :=
  if !r.inReckoning then some .notReckoned
  else if r.blind then some .blind
  else if valve = 0 then (if r.condition = .top then some .atTop else none)
  else if !r.permitted.has valve then some .notPermitted
  else if r.condition = .low ∨ r.condition = .landed then some .atLow
  else none

/-- R47, R48: the check of an office COMMAND to a holder's valve station. -/
def valveCheck (r : Holder) (body : List Byte) : Option RefusalReason :=
  if body.length = 3 ∧ orderCode body = some codeOpen then
    match operandOf body with
    | some v => if v ≤ 6 then openRefusal r v else none
    | none => none
  else none

/-- R82: the check of an office COMMAND to a district's governor station. -/
def governorCheck (r : District) (body : List Byte) : Option RefusalReason :=
  if body.length = 3 then
    match orderCode body, operandOf body with
    | some 3, some v =>
      if r.mode = .auto then some .notAllowed else if r.maximum < v then some .outOfRange else none
    | some 4, _ => if r.mode = .auto then some .notAllowed else none
    | _, _ => none
  else none

end Sys2Proof.Machine
end

