-- ==== Sys2Proof/Machine/Stock.lean ====
section
/-! DEFINITION. The Stock Reckoning Unit: rise, stage, volume, pressure, stock, conditions and blindness (R21 to R40). -/

namespace Sys2Proof.Machine

/-! ### Lift table and marks (R21) -/

/-- The entry of stage k. -/
def Holder.lift (r : Holder) (k : Nat) : Option Lift := recordGet r.lifts k

/-- The entries from stage 1 to the stage count. -/
def Holder.liftList (r : Holder) : List (Option Lift) := r.lifts.toList.take r.stageCount

/-- Numbers strictly increasing. -/
def strictlyRising : List Nat → Bool
  | [] => true
  | [_] => true
  | a :: b :: rest => decide (a < b) && strictlyRising (b :: rest)

/-- R21: completeness of the lift table. -/
def Holder.complete (r : Holder) : Bool :=
  let pickups := r.liftList.filterMap (fun l => l.map (·.pickup))
  r.liftList.all (·.isSome) && strictlyRising pickups && (pickups.getLast?).any (fun g => decide (g < r.topRise))

/-- R21: consistency of the marks. -/
def Holder.consistent (r : Holder) : Bool :=
  decide (r.landedMark < r.lowMark ∧ r.lowMark < r.highMark ∧ r.highMark < r.topMark ∧ r.topMark ≤ r.topRise
    ∧ r.hysteresis < r.lowMark - r.landedMark ∧ r.hysteresis < r.highMark - r.lowMark
    ∧ r.hysteresis < r.topMark - r.highMark)

/-! ### The computation (R24 to R29) -/

/-- R24: the clamped rise. -/
def clampRise (g : Int) (top : Nat) : Nat := min top g.toNat

/-- R24: whether the gauge value is above T, and whether it was clamped at either end. -/
def aboveTop (g : Int) (top : Nat) : Bool := decide ((top : Int) < g)
def riseClamped (g : Int) (top : Nat) : Bool := decide (g < 0) || aboveTop g top

/-- R25: the largest stage whose pickup is not above the rise. A stage without values is passed over (no run reaches
one in a holder that is IN). -/
def stageOf (lifts : List (Option Lift)) (h : Nat) : Nat :=
  let rec go : List (Option Lift) → Nat → Nat → Nat
    | [], _, best => best
    | none :: rest, k, best => go rest (k + 1) best
    | some l :: rest, k, best => go rest (k + 1) (if l.pickup ≤ h then k else best)
  go lifts 1 1

/-- R26: the sum of section by span up to the rise h, in hundredths of a litre. The span of a stage runs to the next
pickup, or to h if that comes first. -/
def spanSum : List Lift → Nat → Nat
  | [], _ => 0
  | [l], h => l.area * (h - l.pickup)
  | l :: m :: rest, h =>
    if m.pickup ≤ h then l.area * (m.pickup - l.pickup) + spanSum (m :: rest) h else l.area * (h - l.pickup)

/-- R26: the actual volume. -/
def actualVolume (r : Holder) (h : Nat) : Nat := r.baseVolume + rounded (spanSum (r.liftList.filterMap id) h) 100

/-- R27: the holder pressure for a stage, and whether a measured one out of range was passed over. -/
def formPressure (r : Holder) (stage : Option Nat) (s : State) : Option Nat × Bool :=
  match stage with
  | none => (none, false)
  | some k =>
    let own := (r.lift k).map (·.pressure)
    match r.pressurePoint.bind s.point with
    | none => (own, false)
    | some p =>
      match p.quality, p.value with
      | .good, some v => if 0 ≤ v ∧ v ≤ 10000 then (some v.toNat, false) else (own, true)
      | _, _ => (own, false)

/-- R29: the temperature of a holder's reckoning. -/
def holderTemperature (r : Holder) (s : State) : Int × Bool :=
  resolve (goodValue r.temperaturePoint (-2000) 5000 s) 1500

/-- R24 to R31: the fields a reckoning of gauge value g writes; the condition and the blind flag are left to their
steps. -/
def reckoned (r : Holder) (g : Int) (s : State) : Holder :=
  let h := clampRise g r.topRise
  let stage := stageOf r.liftList h
  let va := actualVolume r h
  let p := formPressure r (some stage) s
  let t := holderTemperature r s
  let v := standardCorrection va (p.1.getD 0) t.1 s
  { r with
    rise := some h
    stage := some stage
    actualVolume := some va
    pressure := p.1
    stock := some v.1
    overTop := aboveTop g r.topRise
    quality := if riseClamped g r.topRise || p.2 || t.2 || v.2 then .degraded else .good }

/-! ### Yard stock and reports (R32, R38) -/

/-- R32: the yard stock formed afresh. -/
def formYardStock (s : State) : State :=
  { s with yardStock := (s.holders.toList.filterMap (fun r =>
      r.bind (fun r => if r.inReckoning then some (r.stock.getD 0) else none))).sum }

/-- R38: a HOLDER-STATE report is owed. -/
def oweHolderState (h : Nat) (s : State) : State := oweReference (.holder h) s

/-! ### Conditions (R34) and blindness (R36, R37) -/

/-- R51: the cause that entering a condition is. -/
def conditionCause : Condition → Option SupersessionCause
  | .top => some .top
  | .landed => some .landed
  | .low => some .low
  | .high => none
  | .normal => none

/-- A condition's alarm raised or cleared. -/
def raiseCondition (h : Nat) (c : Condition) (s : State) : State :=
  match conditionAlarm c with
  | none => s
  | some k => raiseAlarm (alarmKey k h) s

def clearCondition (h : Nat) (c : Condition) (s : State) : State :=
  match conditionAlarm c with
  | none => s
  | some k => clearAlarm (alarmKey k h) s

/-- R34: the condition changes. -/
def conditionChange (h : Nat) (after : Condition) (s : State) : State :=
  match s.holder h with
  | none => s
  | some r =>
    let s := raiseCondition h after (clearCondition h r.condition s)
    let s := oweHolderState h (s.putHolder h { r with condition := after })
    let s := match conditionCause after with
      | none => s
      | some cause => interlockCause h cause s
    if r.condition = .landed ∨ after = .landed then recomputeSupply s else s

/-- R36: a holder becomes blind. -/
def becomeBlind (h : Nat) (s : State) : State :=
  match s.holder h with
  | none => s
  | some r =>
    if r.blind then s
    else
      let s := s.putHolder h { r with blind := true, quality := .stale }
      let s := oweHolderState h (raiseAlarm (alarmKey .holderBlind h) s)
      handStockPartial (interlockCause h .blind s)

/-- R37: blindness ends at a reckoning. -/
def endBlindness (h : Nat) (s : State) : State :=
  match s.holder h with
  | none => s
  | some r => oweHolderState h (clearAlarm (alarmKey .holderBlind h) (s.putHolder h { r with blind := false }))

/-- R24: a change of the over-top mark. -/
def overTopChange (h : Nat) (before after : Bool) (s : State) : State :=
  if before = after then s
  else if after then raiseAlarm (alarmKey .overTop h) s
  else clearAlarm (alarmKey .overTop h) s

/-! ### A reckoning (R31) -/

/-- R31: the reckoning writes its fields and acts on them in the order of the table. -/
def reckon (h : Nat) (g : Int) (s : State) : State :=
  match s.holder h with
  | none => s
  | some r =>
    let q := reckoned r g s
    let s := formYardStock (s.putHolder h q)
    let s := overTopChange h r.overTop q.overTop s
    let s := if r.blind then endBlindness h s else s
    let after := conditionAfter r (clampRise g r.topRise)
    let s := if after = r.condition then s else conditionChange h after s
    if q.stage = r.stage ∧ q.pressure = r.pressure then s else recomputeSupply s

/-! ### Point updates (R23) -/

/-- R23: the gauge role. -/
def gaugeUpdate (u : PointUpdate) (h : Nat) (s : State) : State :=
  match u.fromEntry, u.quality, u.value with
  | true, .good, some g => reckon h g s
  | true, .failed, _ => becomeBlind h s
  | false, .stale, _ => becomeBlind h s
  | false, .none, _ => becomeBlind h s
  | _, _, _ => s

/-- R23, R27: the pressure role: the holder pressure is formed afresh, and a change is handed on. -/
def pressureUpdate (h : Nat) (s : State) : State :=
  match s.holder h with
  | none => s
  | some r =>
    let p := (formPressure r r.stage s).1
    if p = r.pressure then s else recomputeSupply (s.putHolder h { r with pressure := p })

/-- R23: a point update acts on one holder that is IN and names the point. -/
def holderUpdate (u : PointUpdate) (s : State) (h : Nat) : State :=
  match s.holder h with
  | none => s
  | some r =>
    if r.inReckoning then
      let s := if r.gaugePoint = u.number then gaugeUpdate u h s else s
      if r.pressurePoint = some u.number then pressureUpdate h s else s
    else s

/-- R23: every holder that names the point, in ascending number. -/
def stockUpdate (u : PointUpdate) (s : State) : State := holderNumbers.foldl (holderUpdate u) s

/-! ### Service (R39, R40) -/

/-- R39: HOLDER-SERVICE IN for a holder that is OUT. -/
def bringIn (h : Nat) (s : State) : State :=
  match s.holder h with
  | none => s
  | some r =>
    let s := s.putHolder h
      { r with inReckoning := true, condition := .normal, blind := true, quality := .stale, overTop := false }
    let s := handStockPartial (recomputeSupply (oweHolderState h (formYardStock s)))
    match (s.point r.gaugePoint).bind (fun p => if p.quality = .good then p.value else none) with
    | none => s
    | some g => reckon h g s

/-- R40: HOLDER-SERVICE OUT for a holder that is IN. -/
def takeOut (h : Nat) (s : State) : State :=
  match s.holder h with
  | none => s
  | some r =>
    let s := clearCondition h r.condition s
    let s := clearAlarm (alarmKey .holderBlind h) (clearAlarm (alarmKey .overTop h) s)
    let s := s.putHolder h
      { r with inReckoning := false, condition := .normal, blind := false, overTop := false, quality := .stale }
    let s := oweHolderState h (formYardStock s)
    handStockPartial (recomputeSupply (interlockCause h .out s))

end Sys2Proof.Machine
end

