-- ==== Sys2Proof/Machine/Books.lean ====
section
/-! DEFINITION. Day books: opening and closing of hours and days, the running clock, and setting it (R101 to R104, R113 to
R116), with the meanings of CLOCK_SECOND and WHOLE_HOUR. -/

namespace Sys2Proof.Machine

/-! ### Naming hours and days (R101) -/

/-- R101: the hour of the day. -/
def hourOf (timeOfDay : Nat) : Nat := timeOfDay / 3600

/-- R101: the hour number within a book of a start hour. -/
def hourNumber (startHour hour : Nat) : Nat := (hour + 24 - startHour) % 24

/-- R101: the gas day containing a moment. -/
def gasDay (startHour dayCount timeOfDay : Nat) : Nat :=
  if startHour ≤ hourOf timeOfDay then dayCount else (dayCount + 65535) % 65536

/-! ### Opening an hour (R113) -/

/-- R113: a record of no hour yet. -/
def DistrictHour.fresh : DistrictHour := ⟨0, 0, 0, none, none, none, HourFlags.clear⟩
def MakeHour.fresh : MakeHour := ⟨0, 0, HourFlags.clear⟩
def Hour.fresh : Hour :=
  ⟨.notOpened, Vector.replicate 6 DistrictHour.fresh, Vector.replicate 2 MakeHour.fresh, none⟩

/-- R113, R115: whether any loaded holder is OUT of reckoning or blind. -/
def stockIsPartial (s : State) : Bool :=
  s.holders.toList.any (fun r => r.any (fun r => !r.inReckoning || r.blind))

/-- R113: the rate of the loaded OUTLET meter of a district, or 0. -/
def outletRate (d : Nat) (s : State) : Nat :=
  ((s.meters.toList.filterMap id).find? (fun m => m.target == .outlet d)).elim 0 (·.rate)

/-- R113: a district record opened, or a closed one reopened: the peak takes the greater and the setpoint's minimum and
maximum widen; for a record not opened before, these give the opening values. -/
def openDistrict (s : State) (d : Nat) (q : DistrictHour) : DistrictHour :=
  let q := { q with peakRate := max q.peakRate (outletRate d s) }
  match (s.district d).bind (·.active) with
  | none => q
  | some v => q.widen v

/-- R113: the records of an hour opened, or reopened with CLOCK-SET. -/
def openHour (s : State) (r : Hour) : Hour :=
  let reopened := r.state = .closed
  let flags := { HourFlags.clear with clockSet := decide reopened, stockPartial := stockIsPartial s }
  Hour.flagAll flags { r with
    state := .opened
    districts := Vector.ofFn (fun i : Fin 6 => openDistrict s (i.val + 1) r.districts[i]) }

/-- The current book changed. -/
def modCurrent (f : DayBook → DayBook) (s : State) : State := { s with currentBook := s.currentBook.map f }

/-- R113: the records of the hour containing the present time are opened in the current book. An hour already open
stays so. -/
def openPresentHour (s : State) : State :=
  let opened := fun r : Hour => if r.state = .opened then r else openHour s r
  modCurrent (fun b =>
    { b with hours := vectorModify b.hours (hourNumber b.startHour (hourOf s.clock.timeOfDay)) opened }) s

/-- R113: a book opened at the present moment, with the start hour of the Yard Settings. -/
def openBook (opening : Nat) (s : State) : State :=
  let start := s.settings.startHour
  { nextSerial s with
    currentBook := some
      { serial := s.serial
        gasDay := gasDay start s.clock.dayCount s.clock.timeOfDay
        startHour := start
        opening := opening
        hours := Vector.replicate 24 Hour.fresh
        closing := none
        totals := none
        uag := none
        collected := false } }

/-! ### Closing an hour (R115) -/

/-- The number of the open hour of a book. -/
def openHourNumber (b : DayBook) : Option Nat :=
  (List.range 24).find? (fun n => (b.hours[n]?).any (fun r => r.state == .opened))

/-- R115, step 5: the districts for which an HOUR-CLOSE report is owed. -/
def districtReports (d : Nat) (s : State) : Bool :=
  (s.district d).isSome || (s.meters.toList.filterMap id).any (fun m => m.target == .outlet d)

/-- R115, step 5; R118: the HOUR-CLOSE reports of an hour. -/
def oweHourClose (b : DayBook) (n : Nat) (s : State) : State :=
  let owe := fun s part => oweReference (.hour b.serial b.gasDay n part) s
  owe ((districtNumbers.filter (fun d => districtReports d s)).foldl owe s) 7

/-- R115, steps 1 to 5: the open hour is closed; `clockSet` is the clock-set mark, or a forced step. -/
def closeOpenHour (clockSet : Bool) (s : State) : State :=
  match s.currentBook with
  | none => s
  | some b =>
    match openHourNumber b with
    | none => s
    | some n =>
      let flags := { HourFlags.clear with clockSet := clockSet, stockPartial := stockIsPartial s }
      let s := modOpenHour (fun r =>
        { Hour.flagAll flags r with state := .closed, endStock := some s.yardStock }) s
      oweHourClose b n { s with clock := { s.clock with setMark := false } }

/-! ### Closing a gas day (R116) -/

/-- The sum over a book's 24 records of one district. -/
def districtTotal (b : DayBook) (f : DistrictHour → Nat) (i : Fin 6) : Nat :=
  (b.hours.toList.map (fun r => f r.districts[i])).sum

/-- The sum over a book's 24 records of one make position. -/
def makeTotal (b : DayBook) (f : MakeHour → Nat) (i : Fin 2) : Nat :=
  (b.hours.toList.map (fun r => f r.makes[i])).sum

/-- The flags set on any record of an hour. -/
def Hour.allFlags (r : Hour) : HourFlags :=
  (r.districts.toList.map (·.flags) ++ r.makes.toList.map (·.flags)).foldl HourFlags.union HourFlags.clear

/-- R116, step 2: the day totals. -/
def dayTotals (b : DayBook) : DayTotals :=
  let dv := Vector.ofFn (districtTotal b (·.volume))
  let mv := Vector.ofFn (makeTotal b (·.volume))
  { districtVolume := dv
    districtEnergy := Vector.ofFn (districtTotal b (·.energy))
    makeVolume := mv
    makeEnergy := Vector.ofFn (makeTotal b (·.energy))
    sendOut := dv.toList.sum
    make := mv.toList.sum
    flags := (b.hours.toList.map Hour.allFlags).foldl HourFlags.union HourFlags.clear }

/-- R116, steps 1 to 3: a book closed with a closing stock. -/
def closeBook (closing : Nat) (b : DayBook) : DayBook :=
  let t := dayTotals b
  { b with
    closing := some closing
    totals := some t
    uag := some ((b.opening : Int) + t.make - t.sendOut - closing) }

/-- R116: a day close. The hour containing the present time is opened by the caller. -/
def dayClose (s : State) : State :=
  match s.currentBook with
  | none => s
  | some b =>
    let closing := s.yardStock
    let s := match s.previousBook with
      | some p => if p.collected then s else raiseAlarm (alarmKey .dayOverwritten 0) s
      | none => s
    let s := openBook closing { s with previousBook := some (closeBook closing b) }
    oweReference (.day b.serial b.gasDay) s

/-! ### The running clock (R101, R115) -/

/-- R101: a VALID clock advances by one second; a multiple of 3,600 is a whole hour reached (log 7). -/
def advanceClock (s : State) : State :=
  let c := s.clock
  if !c.valid then s
  else
    let wraps := c.timeOfDay = 86399
    let t := if wraps then 0 else c.timeOfDay + 1
    let d := if wraps then (c.dayCount + 1) % 65536 else c.dayCount
    { s with clock := { c with
        timeOfDay := t, dayCount := d
        hoursDue := if t % 3600 = 0 then c.hoursDue ++ [hourOf t] else c.hoursDue } }

/-- R115: a whole hour of the day is taken. -/
def takeWholeHour (hour : Nat) (s : State) : State :=
  match s.currentBook with
  | none => s
  | some b =>
    let n := hourNumber b.startHour hour
    if openHourNumber b = some n then s
    else
      let s := closeOpenHour s.clock.setMark s
      openPresentHour (if n = 0 then dayClose s else s)

/-- The oldest whole hour reached is taken. -/
def takeHourDue (s : State) : State :=
  match s.clock.hoursDue with
  | [] => s
  | hour :: rest => takeWholeHour hour { s with clock := { s.clock with hoursDue := rest } }

/-- CLOCK_SECOND (R101). The clock runs on through a restart (R100). -/
def execClockSecond (s : State) : Result := whenArises s.clock.valid advanceClock s

/-- WHOLE_HOUR (R115). A whole hour passed during a restart is taken when the restart is complete (R100). -/
def execWholeHour (s : State) : Result := arrival (fun s => !s.clock.hoursDue.isEmpty) takeHourDue s

/-! ### Setting the clock (R102 to R104) -/

/-- R102: a moment, in seconds. -/
def moment (dayCount timeOfDay : Nat) : Nat := dayCount * 86400 + timeOfDay

/-- R102: how far forward one moment is from another, day counts taken modulo 65,536. -/
def forwardStep (old new : Nat) : Nat := (new + 65536 * 86400 - old) % (65536 * 86400)

/-- R102, step 3: one meter's unclocked accumulators are added to the open record of its target, and emptied. -/
def addUnclocked (s : State) (m : Nat) : State :=
  match s.meter m with
  | none => s
  | some r =>
    modOpenHour (Hour.add r.target r.unclockedVolume r.unclockedEnergy r.unclockedFlags)
      (s.putMeter m { r with unclockedVolume := 0, unclockedEnergy := 0, unclockedFlags := HourFlags.clear })

/-- CLOCK-SET on every record of the open hour. -/
def flagClockSet (s : State) : State := modOpenHour (Hour.flagAll { HourFlags.clear with clockSet := true }) s

/-- R102: the first setting of the clock. -/
def firstSetting (dayCount timeOfDay : Nat) (s : State) : State :=
  let s := { s with clock := { s.clock with valid := true, dayCount := dayCount, timeOfDay := timeOfDay } }
  let s := openPresentHour (openBook s.yardStock s)
  flagClockSet (meterNumbers.foldl addUnclocked s)

/-- R103: whether a forward step passes a whole hour, or lands on one. -/
def passesHour (oldTime step : Nat) : Bool := decide (oldTime / 3600 < (oldTime + step) / 3600)

/-- R103: an unforced step forward. -/
def stepForward (dayCount timeOfDay step : Nat) (s : State) : State :=
  let due := if passesHour s.clock.timeOfDay step then [hourOf timeOfDay] else []
  { s with clock := { s.clock with
      dayCount := dayCount, timeOfDay := timeOfDay, setMark := true, hoursDue := s.clock.hoursDue ++ due } }

/-- R103: an unforced step backward. A whole hour just reached and not yet taken, and stepped back across, is not
reached (R119; log 7). -/
def stepBackward (dayCount timeOfDay step : Nat) (s : State) : State :=
  let due := if s.clock.timeOfDay % 3600 < step then s.clock.hoursDue.dropLast else s.clock.hoursDue
  { s with clock := { s.clock with
      dayCount := dayCount, timeOfDay := timeOfDay, setMark := true, hoursDue := due } }

/-- R103: SET-CLOCK without FORCE on a VALID clock. -/
def setUnforced (dayCount timeOfDay : Nat) (s : State) : ResultCode × State :=
  let old := moment s.clock.dayCount s.clock.timeOfDay
  let new := moment dayCount timeOfDay
  let ahead := forwardStep old new
  let behind := forwardStep new old
  if ahead = 0 then (.accepted, s)
  else if ahead ≤ Config.clockStepSeconds then (.accepted, stepForward dayCount timeOfDay ahead s)
  else if behind ≤ Config.clockStepSeconds then (.accepted, stepBackward dayCount timeOfDay behind s)
  else (.stepTooLarge, s)

/-- R104: SET-CLOCK with FORCE on a VALID clock. A whole hour not yet taken is taken by the forced close (R119). -/
def setForced (dayCount timeOfDay : Nat) (s : State) : State :=
  let s := closeOpenHour true s
  let s := { s with clock := { s.clock with
      dayCount := dayCount, timeOfDay := timeOfDay, setMark := false, hoursDue := [] } }
  let s := match s.currentBook with
    | none => s
    | some b => if gasDay b.startHour dayCount timeOfDay = b.gasDay then s else dayClose s
  flagClockSet (openPresentHour s)

end Sys2Proof.Machine
end

