-- ==== Sys2Proof/Machine/Reports.lean ====
section
/-! DEFINITION. The content of each REPORT kind (R168), taken from the records as they stand. -/

namespace Sys2Proof.Machine

/-- A report ready to be formed: its kind code, whether it is URGENT (R156), and its parts' content octets. -/
structure ReportContent where
  kind : Nat
  urgent : Bool
  parts : List (List Byte)
deriving DecidableEq, Repr

/-- A flag set that is absent: R149 gives its form no absent value, so the octet is free (log 10). -/
def unstatedFlags : List Byte := octetsOf 1 (Config.unstatedForm 1 (-1))

/-- R168, ALARM: a record with its state code, 0 ACTIVE, 1 CLEARED-UNACKED, 2 REMOVED. -/
def alarmContent (r : Alarm) (state : Nat) : List Byte :=
  small r.key.kind.code ++ small r.key.subject ++ smallOr r.key.valve ++ small state ++ small r.count
    ++ wideOr r.firstTime ++ wideOr r.lastTime ++ flagOctet r.acknowledged

def AlarmState.code : AlarmState → Nat
  | .active => 0
  | .clearedUnacked => 1

/-- R168, HOLDER-STATE. -/
def holderContent (h : Nat) (r : Holder) : List Byte :=
  small h ++ flagOctet r.inReckoning ++ small r.condition.code ++ flagOctet r.blind ++ flagOctet r.overTop
    ++ smallOr r.stage ++ twoOctetsOr r.rise ++ wideOr r.actualVolume ++ stockForm r.stock
    ++ twoOctetsOr r.pressure ++ small r.quality.code

/-- R168, SETPOINT: supply state 0 SUPPLIED, 1 UNSUPPLIED. -/
def setpointContent (d : Nat) (r : District) : List Byte :=
  small d ++ small r.mode.code ++ twoOctetsOr r.active ++ twoOctetsOr r.lastSent ++ twoOctetsOr r.lastTarget
    ++ twoOctets r.supplyLimit ++ flagOctet (!r.supplied) ++ twoOctets r.correction ++ twoOctets r.fogRaise
    ++ twoOctets r.generation ++ flagOctet r.nextPending ++ flagOctet r.setFailed
    ++ twoOctetsOr r.reportedSetpoint ++ smallOr (r.releasedMark.map boolCode)

/-- R168, HOUR-CLOSE of a district. -/
def districtHourContent (gasDay hour d : Nat) (state : HourState) (r : DistrictHour) : List Byte :=
  twoOctets gasDay ++ small hour ++ small d ++ small state.code ++ stockForm (some r.volume)
    ++ energyForm (some r.energy) ++ wide r.peakRate ++ formOr 2 r.minTellTale ++ twoOctetsOr r.minActive
    ++ twoOctetsOr r.maxActive ++ small r.flags.value

/-- R168, HOUR-CLOSE of one make position. -/
def makeHourContent (state : HourState) (r : MakeHour) : List Byte :=
  small state.code ++ stockForm (some r.volume) ++ energyForm (some r.energy) ++ small r.flags.value

/-- R168, HOUR-CLOSE, make and stock: section 7. -/
def makeStockContent (gasDay hour : Nat) (r : Hour) : List Byte :=
  twoOctets gasDay ++ small hour ++ small 7 ++ makeHourContent r.state r.makes[0] ++ makeHourContent r.state r.makes[1]
    ++ stockForm r.endStock

/-- R168 note 1: an hour record whose book has ceased to be: state 3, the other fields absent. -/
def goneHourContent (gasDay hour part : Nat) : List Byte :=
  twoOctets gasDay ++ small hour ++ small part ++
    if part = 7 then
      small 3 ++ stockForm none ++ energyForm none ++ unstatedFlags
        ++ small 3 ++ stockForm none ++ energyForm none ++ unstatedFlags ++ stockForm none
    else
      small 3 ++ stockForm none ++ energyForm none ++ wideOr none ++ twoOctetsOr none ++ twoOctetsOr none
        ++ twoOctetsOr none ++ unstatedFlags

/-- A volume total and an energy total. -/
def totalPair (volume energy : Option Nat) : List Byte := stockForm volume ++ energyForm energy

/-- R168, DAY-CLOSE: the three parts of a book that is held. -/
def dayContent (b : DayBook) : List (List Byte) :=
  let dv := fun i => b.totals.bind (fun t => t.districtVolume[i]?)
  let de := fun i => b.totals.bind (fun t => t.districtEnergy[i]?)
  let mv := fun i => b.totals.bind (fun t => t.makeVolume[i]?)
  let me := fun i => b.totals.bind (fun t => t.makeEnergy[i]?)
  [ twoOctets b.gasDay ++ small b.startHour ++ small 0 ++ stockForm (some b.opening) ++ stockForm b.closing
      ++ stockForm (b.totals.map (·.sendOut)) ++ stockForm (b.totals.map (·.make)) ++ balance b.uag
      ++ (match b.totals with
          | none => unstatedFlags
          | some t => small t.flags.value)
      ++ flagOctet b.collected,
    twoOctets b.gasDay ++ [0, 1, 2, 3].flatMap (fun i => totalPair (dv i) (de i)),
    twoOctets b.gasDay ++ [4, 5].flatMap (fun i => totalPair (dv i) (de i))
      ++ [0, 1].flatMap (fun i => totalPair (mv i) (me i)) ]

/-- R118, R168 note 1: a day whose book has ceased to be: held octet 1, the other fields absent. -/
def goneDayContent (gasDay : Nat) : List (List Byte) :=
  [ twoOctets gasDay ++ smallOr none ++ small 1 ++ stockForm none ++ stockForm none ++ stockForm none ++ stockForm none
      ++ balance none ++ unstatedFlags ++ smallOr none,
    twoOctets gasDay ++ [0, 1, 2, 3].flatMap (fun _ : Nat => totalPair none none),
    twoOctets gasDay ++ [0, 1, 2, 3].flatMap (fun _ : Nat => totalPair none none) ]

/-- R118: the book of a serial, current or previous. -/
def findBook (serial : Nat) (s : State) : Option DayBook :=
  (s.currentBook.filter (·.serial == serial)).or (s.previousBook.filter (·.serial == serial))

/-- R168, START: its clock fields are taken when it is sent (R174). -/
def startContent (cause : RestartCause) (s : State) : List Byte :=
  small cause.code ++ flagOctet s.clock.valid ++ twoOctets s.clock.dayCount ++ wide s.clock.timeOfDay

/-- R167, R168: the content of an entry's report, taken from the state as it stands. A record that is not held (no run
reaches this for holders, districts and alarms) is sent absent. -/
def reportContent (s : State) : EntryForm → ReportContent
  | .reference (.alarm key) =>
    match findAlarm key s with
    | some r => ⟨1, true, [alarmContent r r.state.code]⟩
    | none => ⟨1, true, [small key.kind.code ++ small key.subject ++ smallOr key.valve ++ small 2 ++ smallOr none
        ++ wideOr none ++ wideOr none ++ smallOr none]⟩
  | .reference (.holder h) =>
    match s.holder h with
    | some r => ⟨4, false, [holderContent h r]⟩
    | none => ⟨4, false, [small h ++ List.replicate 19 255]⟩
  | .reference (.district d) =>
    match s.district d with
    | some r => ⟨5, false, [setpointContent d r]⟩
    | none => ⟨5, false, [small d ++ List.replicate 21 255]⟩
  | .reference (.hour book gasDay hour part) =>
    match (findBook book s).bind (fun b => b.hours[hour]?) with
    | none => ⟨6, false, [goneHourContent gasDay hour part]⟩
    | some r =>
      if part = 7 then ⟨6, false, [makeStockContent gasDay hour r]⟩
      else
        match r.districts[part - 1]? with
        | none => ⟨6, false, [goneHourContent gasDay hour part]⟩
        | some q => ⟨6, false, [districtHourContent gasDay hour part r.state q]⟩
  | .reference (.day book gasDay) =>
    match findBook book s with
    | some b => ⟨7, false, dayContent b⟩
    | none => ⟨7, false, goneDayContent gasDay⟩
  | .full (.refusal station code operand reason) =>
    ⟨2, true, [small station ++ smallOr code ++ twoOctetsOr operand ++ small reason.code]⟩
  | .full (.superseded station code operand cause) =>
    ⟨3, true, [small station ++ smallOr code ++ twoOctetsOr operand ++ small Origin.office.code ++ small cause.code]⟩
  | .full (.removedAlarm r) => ⟨1, true, [alarmContent r 2]⟩
  | .full (.start cause) => ⟨8, false, [startContent cause s]⟩

end Sys2Proof.Machine
end

