-- ==== Sys2Proof/Machine/Sending.lean ====
section
/-! DEFINITION. Sends of orders, report parts, claims and freeings: who takes buffers and in which order (R66, R67, R153,
R154, R167), with the meanings of ORDER_SEND and REPORT_SEND. -/

namespace Sys2Proof.Machine

/-! ### Sends of an order (R66, R67) -/

/-- R66: the ports a send's copies go to, by the learned branch; of two, N is served first (log 36). -/
def copyPorts : Option Branch → List Port
  | some b => [b.port]
  | none => [.n, .s]

/-- R67, R137: whether a copy of an order may be queued toward a port. -/
def copyEnabled (o : Order) (p : Port) (s : State) : Bool :=
  if o.fromOffice then
    match p with
    | .o => true
    | .n => s.settings.enables.officeToN
    | .s => s.settings.enables.officeToS
  else true

/-- R67: an office order carries source 0, an automatic order source 240. -/
def Order.source (o : Order) : Nat := if o.fromOffice then officeAddress else ownAddress

/-- R67: the copies of a send queued on the URGENT queues of their ports; the buffers of copies toward a disabled
direction are given back, to be freed once every copy is queued and the slot is written (log 43). -/
def queueCopies (o : Order) (send : Nat) : List (Port × Buffer) → State → List Buffer × State
  | [], s => ([], s)
  | (p, b) :: rest, s =>
    if copyEnabled o p s then
      queueCopies o send rest
        (enqueue p true ⟨b, frame o.station o.source kindCommand o.body, .orderCopy o.station send⟩ s)
    else
      let q := queueCopies o send rest s
      (b :: q.1, q.2)

/-- The order whose send a station's slot waits to make, if it stands in BUFFER-WAIT. -/
def waitingOrder (st : Station) : Option Order :=
  match st.slot with
  | .bufferWait o => some o
  | _ => none

/-- R66: the buffers of a send, all taken together by the branch as it stands, or none. -/
def takeForSend (a : Nat) (s : State) : Option (Station × Order × List Buffer × State) :=
  match s.station a with
  | none => none
  | some st =>
    match waitingOrder st with
    | none => none
    | some o =>
      match takeUrgentMany (copyPorts st.branch).length s with
      | none => none
      | some (bs, s) => some (st, o, bs, s)

/-- R66, R67: a send whose buffers are taken: sends made increases by 1, the copies are queued, and the slot enters
ON-LINE; with no copy queued the reply timer starts at once. The first buffer goes to the copy to N (log 36). -/
def makeSend (st : Station) (o : Order) (buffers : List Buffer) (s : State) : List Buffer × State :=
  let send := s.serial
  let o := { o with sends := o.sends + 1 }
  let q := queueCopies o send ((copyPorts st.branch).zip buffers) (nextSerial s)
  let queued := buffers.length - q.1.length
  let slot := if queued = 0 then .awaitingReply o st.replyTime else .onLine o send queued
  (q.1, q.2.modStation st.address (fun e => { e with slot := slot }))

/-! ### Report parts (R167) -/

/-- R167: the buffer of a part, by the class its kind needs. -/
def takeForReport (c : ReportContent) (s : State) : Option (Buffer × State) :=
  if c.urgent then takeUrgent s else takeGeneral none s

/-- R167: when the last part of an entry has joined its queue the entry leaves, and an alarm record's report-owed flag
is cleared. -/
def retireHead (e : Entry) (rest : List Entry) (s : State) : State :=
  let s := { s with backlog := rest }
  match e.form with
  | .reference (.alarm key) =>
    { s with alarms := s.alarms.map (fun r => if r.key == key then { r with reportOwed := false } else r) }
  | _ => s

/-- R167: the next part of the head entry takes its buffer and joins the office queue; none where it finds no buffer.
`test` makes the holding test that follows a taking outside the claim list (R154, R158). -/
def sendPart (test : Bool) (s : State) : Option State :=
  match s.backlog with
  | [] => none
  | e :: rest =>
    let content := reportContent s e.form
    let held := e.held.getD ⟨content.parts.length, content.parts⟩
    match held.remaining with
    | [] => some (retireHead e rest s)
    | part :: parts =>
      match takeForReport content s with
      | none => none
      | some (b, s) =>
        let s := if test then holdingTest s else s
        let number := held.partCount - parts.length
        let body := octet content.kind :: octet number :: octet held.partCount :: part
        let s := enqueue .o content.urgent ⟨b, frame officeAddress ownAddress kindReport body, .plain⟩ s
        match parts with
        | [] => some (retireHead e rest s)
        | _ :: _ => some { s with backlog := { e with held := some ⟨held.partCount, parts⟩ } :: rest }

/-- R153: the backlog's claim is placed at the tail of the claim list; it has at most one. -/
def claimForBacklog (s : State) : State :=
  if s.claims.contains .backlog then s else { s with claims := s.claims ++ [.backlog] }

/-- R167: parts are sent, and each new head taken at once, until the backlog is empty or a part waits with the claim. -/
def sendReports (test : Bool) : Nat → State → State
  | 0, s => s
  | fuel + 1, s =>
    if s.backlog.isEmpty then s
    else
      match sendPart test s with
      | some s => sendReports test fuel s
      | none => claimForBacklog s

/-- More parts than a full backlog can hold. -/
abbrev reportFuel : Nat := 3 * Config.backlogEntries + 1

/-! ### Claims and freeings (R153, R154) -/

/-- R153: one claim is offered the free buffers. Answers the buffers its send gave back, and the state; none where its
whole need cannot be met. -/
def offerClaim (c : Claim) (s : State) : Option (List Buffer × State) :=
  match c with
  | .send a =>
    match takeForSend a s with
    | none => none
    | some (st, o, bs, s) => some (makeSend st o bs (withdrawClaim c s))
  | .backlog =>
    match sendPart false s with
    | none => none
    | some s => some ([], sendReports false reportFuel (withdrawClaim c s))

/-- R153: the free buffers are offered to the claims from head to tail. A send that gives buffers back ends the pass: each
of them is then freed by itself, with an offer from the head (R67, R154; log 19). -/
def offerPass : List Claim → State → List Buffer × State
  | [], s => ([], s)
  | c :: rest, s =>
    if s.claims.contains c then
      match offerClaim c s with
      | none => offerPass rest s
      | some ([], s) => offerPass rest s
      | some (b :: bs, s) => (b :: bs, s)
    else offerPass rest s

/-- R154: a freeing: the buffer becomes free in its class, the claims are offered, and the holding test is made. Each buffer
that a met claim gives back is freed in the same way, one after the other, before that test (R67; log 19). Every such
freeing within a freeing has one claim fewer, which bounds the depth. -/
def freeing : Nat → Buffer → State → State
  | 0, b, s => holdingTest (releaseBuffer b s)
  | depth + 1, b, s =>
    let s := releaseBuffer b s
    let pass := offerPass s.claims s
    holdingTest (pass.1.foldl (fun s b => freeing depth b s) pass.2)

/-- R154: a buffer is freed. -/
def freeBuffer (b : Buffer) (s : State) : State := freeing (s.claims.length + 1) b s

/-- Several buffers freed, in order. -/
def freeBuffers (bs : List Buffer) (s : State) : State := bs.foldl (fun s b => freeBuffer b s) s

/-! ### ORDER_SEND and REPORT_SEND -/

/-- R66: a station has a send to make when its slot waits without a claim, or stands EMPTY over a waiting order. -/
def sendIsDue (a : Nat) (s : State) : Bool :=
  match s.station a with
  | none => false
  | some st =>
    match st.slot with
    | .bufferWait _ => !s.claims.contains (.send a)
    | .empty => !st.pendingList.isEmpty
    | _ => false

/-- R66, R67: the send takes its buffers and is made, or waits in BUFFER-WAIT with a claim. The buffers of copies toward a
disabled direction are freed after the other copy has joined its queue and the slot is written (log 43). -/
def attemptSend (a : Nat) (s : State) : State :=
  let s := serve a s
  match takeForSend a s with
  | none => { s with claims := s.claims ++ [.send a] }
  | some (st, o, bs, s) =>
    let m := makeSend st o bs (holdingTest s)
    freeBuffers m.1 m.2

/-- ORDER_SEND (R66). -/
def execOrderSend (a : Nat) (s : State) : Result := arrival (sendIsDue a) (attemptSend a) s

/-- REPORT_SEND (R167): the head entry is sent when it is the head and does not wait with a claim. -/
def execReportSend (s : State) : Result :=
  arrival (fun s => !s.backlog.isEmpty && !s.claims.contains .backlog) (sendReports true reportFuel) s

end Sys2Proof.Machine
end

