-- ==== Sys2Proof/Machine/Endings.lean ====
section
/-! DEFINITION. How orders end: failure after the fifth send, completion by a REPLY, the end of a copy's transmission, and
DROP-STATION's clearing (R67 to R73, R76), with the meaning of REPLY_TIMER_EXPIRY. -/

namespace Sys2Proof.Machine

/-- R57, R59: an automatic CLOSE's ending goes to the holder whose valve station it is, if any. -/
def handCloseEnding (o : Order) (done resume : Bool) (s : State) : State :=
  match s.holderOfStation o.station with
  | none => s
  | some h => closeEnded h o done resume s

/-- R69: an order failed after its fifth send; the slot is already empty. -/
def orderFailed (o : Order) (s : State) : State :=
  match o.origin with
  | .office => oweRefusal o.station o.body .noReply s
  | .interlock => handCloseEnding o false true s
  | .scheduler d =>
    if o.isSet then setFailed true d o.station s else raiseAlarm (alarmKey .orderFailed d) s

/-- R68: expiry of the reply timer: a repeat send is started, or the order fails (R69) and the next send is started. -/
def replyTimerExpired (a : Nat) (s : State) : State :=
  match s.station a with
  | none => s
  | some st =>
    match st.slot with
    | .awaitingReply o _ =>
      if o.sends < Config.sendsPerOrder then s.modStation a (fun e => { e with slot := .bufferWait o })
      else serve a (orderFailed o (emptySlot a s))
    | _ => s

/-- R68: the reply timer runs exactly in AWAITING-REPLY. -/
def replyTimerRuns (a : Nat) (s : State) : Bool :=
  match s.station a with
  | none => false
  | some st =>
    match st.slot with
    | .awaitingReply _ _ => true
    | _ => false

/-- REPLY_TIMER_EXPIRY (R68). -/
def execReplyTimerExpiry (a : Nat) (s : State) : Result := arrival (replyTimerRuns a) (replyTimerExpired a) s

/-- R70: a REPLY body matches an order by code and operand. -/
def replyMatches (o : Order) (body : List Byte) : Bool :=
  decide (3 ≤ body.length) && o.code.isSome && o.operand.isSome
    && orderCode body == o.code && operandOf body == o.operand

/-- R70: the order in the slot of a source that the REPLY matches. -/
def matchedOrder (source : Nat) (body : List Byte) (s : State) : Option Order :=
  ((s.station source).bind (fun st => st.slot.order?)).filter (fun o => replyMatches o body)

/-- R71, R83: an office SET or RELEASE of 3 octets is also handed to the Pressure Scheduler, for the district whose
governor station the source is. -/
def officeCompletion (o : Order) (body : List Byte) (s : State) : State :=
  if o.body.length = 3 ∧ (o.isSet ∨ o.isRelease) then
    match s.districtOfStation o.station with
    | none => s
    | some d => governorCompletion d o.station o body s
  else s

/-- R72: the completion of an automatic order is handed on by its issuer. For the scheduler, R83's writing of the district
(and its SETPOINT report) comes before R72's clearing or raising of ORDER-FAILED (log 35). -/
def automaticCompletion (o : Order) (body : List Byte) (s : State) : State :=
  match o.origin with
  | .office => s
  | .interlock => handCloseEnding o (replyResult body == .done) true s
  | .scheduler d => judgeOrderFailed d body (governorCompletion d o.station o body s)

/-- R70 to R72: a matching REPLY completes the order in the slot in any phase; the next send is then started. The
REPLY's own buffer is the caller's to dispose of. -/
def completeOrder (a : Nat) (o : Order) (body : List Byte) (s : State) : State :=
  let s := emptySlot a s
  serve a (if o.fromOffice then officeCompletion o body s else automaticCompletion o body s)

/-- R67: the end of one copy's transmission. At the last copy of the slot's latest send the reply timer starts at the
station's reply time. A copy of any other send starts nothing (R70, R74). -/
def copyTransmitted (a send : Nat) (s : State) : State :=
  s.modStation a (fun st =>
    match st.slot with
    | .onLine o n copies =>
      if n = send then
        (if copies ≤ 1 then { st with slot := .awaitingReply o st.replyTime }
         else { st with slot := .onLine o n (copies - 1) })
      else st
    | _ => st)

/-- R76: one order cleared by DROP-STATION; an automatic CLOSE is left to the Valve Interlock Unit (R58). -/
def clearOrder (s : State) (o : Order) : State :=
  match o.origin with
  | .office => oweSuperseded o .dropped s
  | .interlock => s
  | .scheduler d => if o.isSet then setFailed false d o.station s else s

/-- R76: the slot's order first, then the pending list from head to tail. -/
def clearOrders (a : Nat) (s : State) : State :=
  match s.station a with
  | none => s
  | some st => (st.orders).foldl clearOrder (setList a [] (emptySlot a s))

/-- R58: the holder's closure sequence ends with its station. -/
def endSequence (a : Nat) (s : State) : State :=
  match s.holderOfStation a with
  | none => s
  | some h =>
    match s.routing h with
    | none => s
    | some q => dropSequence h q.sequence s

end Sys2Proof.Machine
end

