-- ==== Sys2Proof/Machine/Points.lean ====
section
/-! DEFINITION. The Point Converter: conversion, quality, hand-overs and rewriting (R3 to R11). -/

namespace Sys2Proof.Machine

/-! ### Conversion (R4 to R6) -/

/-- R4: the raw value after clamping. -/
def clampRaw (p : Point) (raw : Nat) : Nat := if raw < p.rawMin then p.rawMin else if p.rawMax < raw then p.rawMax else raw

/-- R4: the engineering value of a LEVEL entry. -/
def levelValue (p : Point) (raw : Nat) : Int := p.lo + rounded (clampRaw p raw * (p.hi - p.lo).toNat) 65535

/-- R4, R5: the engineering value by kind. -/
def convert (p : Point) (raw : Nat) : Int :=
  match p.kind with
  | .level => levelValue p raw
  | .count => raw
  | .period => raw

/-- R4: whether an entry is clamped; never for COUNT and PERIOD. -/
def isClamped (p : Point) (raw : Nat) : Bool :=
  match p.kind with
  | .level => clampRaw p raw != raw
  | .count => false
  | .period => false

/-- R4 to R6: a point after one of its entries. A FAILED entry holds the value fields. -/
def Point.take (p : Point) (e : RawEntry) (now : Option Nat) : Point :=
  let quality := entryQuality e.quality (isClamped p e.value)
  if quality = .failed then { p with quality := quality, updated := now }
  else { p with lastRaw := some e.value, value := some (convert p e.value), quality := quality, updated := now }

/-! ### Hand-overs (R7, R8) -/

/-- R7: an update is handed to every consumer whose record names the point (their order: log 14). -/
def handUpdate (u : PointUpdate) (s : State) : State := schedulerUpdate u (accountUpdate u (stockUpdate u s))

/-- The update a point gives as it stands. -/
def Point.update (p : Point) (n : Nat) (fromEntry : Bool) : PointUpdate := ⟨n, p.kind, p.value, p.quality, fromEntry⟩

/-- R1: the point number of a key. -/
def findPoint (station channel : Nat) (s : State) : Option Nat :=
  (List.range 192).find? (fun n => (s.point n).any (fun p => p.station == station && p.channel == channel))

/-- R3: one entry: a configured key is converted and handed on; any other is not acted on. -/
def takeEntry (source : Nat) (s : State) (e : RawEntry) : State :=
  match findPoint source e.channel s with
  | none => s
  | some n =>
    match s.point n with
    | none => s
    | some p =>
      let p := p.take e s.timeNow
      handUpdate (p.update n true) (s.putPoint n (some p))

/-- R3: a SAMPLE is read entry by entry; a body that is not well formed converts nothing. -/
def convertSample (source : Nat) (body : List Byte) (s : State) : State :=
  if sampleWellFormed body then (rawEntries (body.drop 1)).foldl (takeEntry source) s else s

/-- R8: one point of a station becomes STALE and is handed on, unless it is NONE or STALE already. -/
def stalePoint (station : Nat) (s : State) (n : Nat) : State :=
  match s.point n with
  | none => s
  | some p =>
    if p.station = station ∧ p.quality ≠ .none ∧ p.quality ≠ .stale then
      let p := { p with quality := .stale }
      handUpdate (p.update n false) (s.putPoint n (some p))
    else s

/-- R8: the points of a station become STALE, in ascending point number. -/
def stalePoints (station : Nat) (s : State) : State := (List.range 192).foldl (stalePoint station) s

/-! ### Rewriting for the office (R9 to R11) -/

/-- What the rewriting has gathered: kept raw entries, annotated entries, and the running body length. -/
structure Rewrite where
  kept : List RawEntry
  annotated : List (List Byte)
  length : Nat
deriving DecidableEq, Repr

/-- R9: an annotated entry: channel plus 16, quality code, engineering value or 0. -/
def annotatedOctets (e : RawEntry) (p : Point) : List Byte :=
  octet (e.channel + 16) :: octet p.quality.code :: signedForm 4 (some (p.value.getD 0))

/-- R9, R10: one raw entry taken. -/
def rewriteEntry (source : Nat) (s : State) (w : Rewrite) (e : RawEntry) : Rewrite :=
  match (findPoint source e.channel s).bind s.point with
  | none => { w with kept := w.kept ++ [e] }
  | some p =>
    match p.forward with
    | .pass => { w with kept := w.kept ++ [e] }
    | .suppress => { w with length := w.length - 4 }
    | .annotate =>
      if w.length + 6 ≤ Config.longestBody then
        ⟨w.kept ++ [e], w.annotated ++ [annotatedOctets e p], w.length + 6⟩
      else { w with kept := w.kept ++ [e] }

/-- R9, R10: the rewriting of a well-formed body. -/
def rewrite (source : Nat) (body : List Byte) (s : State) : Rewrite :=
  (rawEntries (body.drop 1)).foldl (rewriteEntry source s) ⟨[], [], body.length⟩

/-- R9: the body written out: the entry count, the kept raw entries, the annotated entries. -/
def Rewrite.body (w : Rewrite) : List Byte :=
  octet (w.kept.length + w.annotated.length) :: (w.kept.flatMap rawOctets ++ w.annotated.flatten)

/-- R9 to R11: the telegram that goes to the office: as it arrived when its body is not well formed, rewritten
otherwise, and none when no raw entry is kept. -/
def officeCopy (octets : List Byte) (s : State) : Option (List Byte) :=
  let body := bodyOf octets
  if sampleWellFormed body then
    let w := rewrite (sourceOf octets) body s
    if w.kept.isEmpty then none
    else some (frame (destinationOf octets) (sourceOf octets) (kindOf octets) w.body)
  else some octets

end Sys2Proof.Machine
end

