-- ==== Sys2Proof/Machine/Relay.lean ====
section
/-! DEFINITION. The Relay Unit: hearing, resolution and forwarding, with the meanings of SAMPLE, REPLY, OFFICE_COMMAND,
WAITING_TIMER_EXPIRY and AGING_TIMER_EXPIRY (chapter 7). -/

namespace Sys2Proof.Machine

/-! ### Telegrams in reception -/

/-- The oldest telegram in reception of a port, and the others. -/
def firstOfPort (p : Port) : List Received → Option (Received × List Received)
  | [] => none
  | r :: rest =>
    if r.port = p then some (r, rest)
    else (firstOfPort p rest).map (fun x => (x.1, r :: x.2))

/-- The oldest telegram of a port taken out of reception for its pass. -/
def takeReceived (p : Port) (s : State) : Option (Received × State) :=
  (firstOfPort p s.line.received).map (fun x => (x.1, { s with line := { s.line with received := x.2 } }))

/-- Whether the oldest telegram of a port is of a kind. -/
def oldestIs (p : Port) (kind : Nat) (s : State) : Bool :=
  (firstOfPort p s.line.received).any (fun x => kindOf x.1.octets == kind)

/-! ### Hearing a station (R122 to R129) -/

/-- R122, step 1: the branch learned or migrated. -/
def learnBranch (b : Branch) (st : Station) : Station :=
  match st.branch with
  | none => { st with branch := some b }
  | some held => if held = b then st else { st with branch := some b, migrations := min 255 (st.migrations + 1) }

/-- R122, steps 2 to 4: last heard, waiting timer, liveness. -/
def markHeard (now : Option Nat) (st : Station) : Station :=
  { st with
    lastHeard := now
    waitingTimer := if st.waitingTime = 0 then st.waitingTimer else .running st.waitingTime
    liveness := .live }

/-- R122, R123: a configured station is heard. -/
def hearStation (st : Station) (b : Branch) (s : State) : State :=
  let a := st.address
  let moved := st.branch = some b.other
  let s := s.modStation a (learnBranch b)
  let s := if moved then raiseAlarm (alarmKey .stationMoved a) s else s
  let s := s.modStation a (markHeard s.timeNow)
  if st.liveness = .live then s else clearAlarm (alarmKey .stationSilent a) s

/-- R128: a stranger is heard: its entry moves to the tail, or a new one joins it, the head leaving a full list. -/
def hearStranger (a : Nat) (b : Branch) (s : State) : State :=
  match s.stranger a with
  | some e =>
    let e := { e with
      branch := b, telegrams := min 65535 (e.telegrams + 1), lastHeard := s.timeNow
      agingTimer := .running Config.agingSeconds }
    { s with strangers := s.strangers.filter (fun q => q.address != a) ++ [e] }
  | none =>
    let kept := if s.strangers.length < Config.strangerEntries then s.strangers else s.strangers.drop 1
    { s with strangers := kept ++ [⟨a, b, 1, s.timeNow, .running Config.agingSeconds⟩] }

/-- R133, step 1: the source's directory entry, or its stranger entry, is brought up to date. -/
def hear (a : Nat) (b : Branch) (s : State) : State :=
  match s.station a with
  | some st => hearStation st b s
  | none => hearStranger a b s

/-- R125: a station goes SILENT, and its points become STALE. -/
def goSilent (a : Nat) (s : State) : State :=
  let s := s.modStation a (fun st => { st with waitingTimer := .stopped, liveness := .silent })
  stalePoints a (raiseAlarm (alarmKey .stationSilent a) s)

/-- Whether a timer runs. -/
def Timer.runs : Timer → Bool
  | .stopped => false
  | .running _ => true

/-- WAITING_TIMER_EXPIRY (R125). -/
def execWaitingTimerExpiry (a : Nat) (s : State) : Result :=
  arrival (fun s => (s.station a).any (fun st => st.waitingTimer.runs)) (goSilent a) s

/-- AGING_TIMER_EXPIRY (R129). -/
def execAgingTimerExpiry (a : Nat) (s : State) : Result :=
  arrival (fun s => (s.stranger a).isSome)
    (fun s => { s with strangers := s.strangers.filter (fun e => e.address != a) }) s

/-! ### Resolution and enables (R134, R137) -/

/-- R134: the known branch of a destination from 1 to 239. -/
def knownBranch (a : Nat) (s : State) : Option Branch :=
  match s.station a with
  | some st => st.branch
  | none => (s.stranger a).map (·.branch)

/-- R134: the port a field telegram's one copy goes to; none when it is consumed or not forwarded. -/
def resolveField (destination : Nat) (arrival : Branch) (s : State) : Option Port :=
  if destination = officeAddress then some .o
  else if destination = ownAddress then none
  else if knownBranch destination s = some arrival then none
  else some arrival.other.port

/-- R137: the enable of the direction from a field branch to a port. -/
def fieldEnabled (source : Branch) (p : Port) (s : State) : Bool :=
  match source, p with
  | .n, .o => s.settings.enables.nToOffice
  | .s, .o => s.settings.enables.sToOffice
  | .n, _ => s.settings.enables.nToS
  | .s, _ => s.settings.enables.sToN

/-- R137: the enable of the direction from the office to a port. -/
def officeEnabled (p : Port) (s : State) : Bool :=
  match p with
  | .o => true
  | .n => s.settings.enables.officeToN
  | .s => s.settings.enables.officeToS

/-- R133 step 5, R136, R137: a field telegram's copy in its own buffer; `rewritten` is what goes to the office. -/
def forwardField (r : Received) (b : Branch) (urgent : Bool) (rewritten : Option (List Byte)) (s : State) : State :=
  match resolveField (destinationOf r.octets) b s with
  | none => freeBuffer r.buffer s
  | some p =>
    if fieldEnabled b p s then
      match (if p = .o then rewritten else some r.octets) with
      | none => freeBuffer r.buffer s
      | some octets => enqueue p urgent ⟨r.buffer, octets, .plain⟩ s
    else freeBuffer r.buffer s

/-! ### SAMPLE and REPLY (R133) -/

/-- A good SAMPLE on its pass: heard, converted, resolved, tested, rewritten if bound for the office, queued. -/
def passSample (r : Received) (b : Branch) (s : State) : State :=
  let source := sourceOf r.octets
  let s := convertSample source (bodyOf r.octets) (hear source b s)
  forwardField r b false (officeCopy r.octets s) s

/-- R71: a REPLY that completes an office order goes to the office in its own buffer, as it stands. -/
def forwardCompletion (r : Received) (b : Branch) (s : State) : State :=
  if fieldEnabled b .o s then enqueue .o true ⟨r.buffer, r.octets, .plain⟩ s else freeBuffer r.buffer s

/-- R46: a REPLY is taken by the Valve Interlock Unit when its source is a holder's valve station. -/
def interlockReply (source : Nat) (body : List Byte) (s : State) : State :=
  match s.holderOfStation source with
  | none => s
  | some h => takeValveStates h body s

/-- A good REPLY on its pass: heard, taken by the Valve Interlock Unit, matched by the Order Unit, and disposed of by it
(R71, R72) or resolved (R73). The order is completed, and handed on to its issuer or to the Pressure Scheduler (R83),
before the REPLY is queued or its buffer freed: for an automatic order, and for an office order whose direction to the
office is off (log 41). -/
def passReply (r : Received) (b : Branch) (s : State) : State :=
  let source := sourceOf r.octets
  let body := bodyOf r.octets
  let s := interlockReply source body (hear source b s)
  match matchedOrder source body s with
  | none => forwardField r b true (some r.octets) s
  | some o =>
    let s := completeOrder source o body s
    if o.fromOffice then forwardCompletion r b s else freeBuffer r.buffer s

/-- The oldest telegram of a field port is taken and passed. -/
def passField (p : Port) (pass : Received → Branch → State → State) (s : State) : State :=
  match fieldBranch p, takeReceived p s with
  | some b, some (r, s) => pass r b s
  | _, _ => s

/-- SAMPLE (R133). -/
def execSample (p : Port) (s : State) : Result :=
  arrival (oldestIs p kindSample) (passField p passSample) s

/-- REPLY (R133). -/
def execReply (p : Port) (s : State) : Result :=
  arrival (oldestIs p kindReply) (passField p passReply) s

/-! ### The office's MANAGE telegrams that have no step of their own (R135, R169; log 3) -/

/-- R169: the ANSWER is written over the MANAGE in the same buffer, and joins the office ROUTINE queue. -/
def queueAnswer (buffer : Buffer) (tag : Tag) (code : Byte) (result : ResultCode) (data : List Byte) (s : State) : State :=
  enqueue .o false
    ⟨buffer, frame officeAddress ownAddress kindAnswer (code :: octet result.code :: data), tag⟩ s

/-- R169: whether a MANAGE body names a request. -/
def requestCode (body : List Byte) : Option Nat :=
  match body with
  | [] => none
  | c :: _ => if 1 ≤ c.toNat ∧ c.toNat ≤ 21 then some c.toNat else none

/-- R135, R169: port O's oldest telegram, if it is a MANAGE that no request step takes: one to another address than 240,
or taken in RESET-PENDING, is discarded; one without a request code is answered BAD-FORMAT. -/
def drainOne (s : State) : Option State :=
  match takeReceived .o s with
  | none => none
  | some (r, t) =>
    if kindOf r.octets = kindManage then
      if destinationOf r.octets ≠ ownAddress || !isReady s then some (freeBuffer r.buffer t)
      else
        match requestCode (bodyOf r.octets) with
        | some _ => none
        | none => some (queueAnswer r.buffer .plain ((bodyOf r.octets).headD 0) .badFormat [] t)
    else none

/-- Such telegrams are taken as soon as they are port O's oldest. -/
def drainOffice : Nat → State → State
  | 0, s => s
  | fuel + 1, s =>
    match drainOne s with
    | none => s
    | some s => drainOffice fuel s

/-- Every telegram of port O that a drain can reach. -/
def drain (s : State) : State := drainOffice s.line.received.length s

/-! ### OFFICE_COMMAND (R135, R136) -/

/-- R136: a copy in the telegram's own buffer. -/
def ownCopy (r : Received) (p : Port) (s : State) : State := enqueue p true ⟨r.buffer, r.octets, .plain⟩ s

/-- R136, R151: the copy to S in a further general buffer, charged to port O; where none may be taken it is not sent and
port O's dropped figure counts it. -/
def furtherCopy (r : Received) (s : State) : State :=
  match takeGeneral (some .o) s with
  | none => s.modPort .o (fun q => { q with dropped := countUp q.dropped })
  | some (b, s) => enqueue .s true ⟨b, r.octets, .plain⟩ (holdingTest s)

/-- R136, R137: a COMMAND for both branches. -/
def forwardBoth (r : Received) (s : State) : State :=
  match officeEnabled .n s, officeEnabled .s s with
  | true, true => furtherCopy r (ownCopy r .n s)
  | true, false => ownCopy r .n s
  | false, true => ownCopy r .s s
  | false, false => freeBuffer r.buffer s

/-- R135, R137: a COMMAND for a stranger's branch. -/
def forwardOne (r : Received) (p : Port) (s : State) : State :=
  if officeEnabled p s then ownCopy r p s else freeBuffer r.buffer s

/-- R135: the checks of a COMMAND: those of the valve station, then those of the governor station. -/
def commandRefusal (a : Nat) (body : List Byte) (s : State) : Option RefusalReason :=
  ((s.holderOfStation a).bind s.holder |>.bind (fun r => valveCheck r body)).or
    ((s.districtOfStation a).bind s.district |>.bind (fun r => governorCheck r body))

/-- R48, R63, R82: a COMMAND refused: its buffer is freed and REFUSAL is owed. -/
def refuseCommand (r : Received) (a : Nat) (reason : RefusalReason) (s : State) : State :=
  oweRefusal a (bodyOf r.octets) reason (freeBuffer r.buffer s)

/-- R135: a COMMAND to a field station's address that has passed its checks. -/
def dispatchCommand (r : Received) (a : Nat) (s : State) : State :=
  match s.station a with
  | some st =>
    if listHasRoom st then freeBuffer r.buffer (placeOffice a (bodyOf r.octets) s)
    else refuseCommand r a .busy s
  | none =>
    match s.stranger a with
    | some e => forwardOne r e.branch.port s
    | none => forwardBoth r s

/-- R135: an office COMMAND on its pass. -/
def passCommand (r : Received) (s : State) : State :=
  let a := destinationOf r.octets
  if a = ownAddress then freeBuffer r.buffer s
  else if a = allStations then forwardBoth r s
  else
    match commandRefusal a (bodyOf r.octets) s with
    | some reason => refuseCommand r a reason s
    | none => dispatchCommand r a s

/-- The oldest telegram of port O is taken and passed, and the drain follows. -/
def passOffice (s : State) : State :=
  match takeReceived .o s with
  | none => s
  | some (r, s) => drain (passCommand r s)

/-- OFFICE_COMMAND (R135). -/
def execOfficeCommand (s : State) : Result := arrival (oldestIs .o kindCommand) passOffice s

end Sys2Proof.Machine
end

