-- ==== Sys2Proof/Machine/Requests.lean ====
section
/-! DEFINITION. How a MANAGE request is taken, judged, performed and answered (R169). -/

namespace Sys2Proof.Machine

/-- What comes of a request: its result, the ANSWER's data, and the state. -/
structure Performed where
  result : ResultCode
  data : List Byte
  state : State
deriving DecidableEq, Repr

/-- The first check that fails, in the order in which they stand. -/
def firstFailure : List (Bool × ResultCode) → Option ResultCode
  | [] => none
  | (fails, r) :: rest => if fails then some r else firstFailure rest

/-- R169: the first result that applies; a refused request changes no state, an accepted one is performed whole. -/
def judge (checks : List (Bool × ResultCode)) (act : State → State) (s : State) : Performed :=
  match firstFailure checks with
  | some r => ⟨r, [], s⟩
  | none => ⟨.accepted, [], act s⟩

/-- R173: the transmission of an accepted RESET's ANSWER begins the restart. -/
def answerTag (code : Nat) (result : ResultCode) : Tag :=
  if code = 21 ∧ result = .accepted then .resetAnswer else .plain

/-- R169: in READY, port O's oldest telegram is a MANAGE to 240 with this request code. -/
def requestWaits (code : Nat) (s : State) : Bool :=
  isReady s && (firstOfPort .o s.line.received).any (fun x =>
    kindOf x.1.octets == kindManage && destinationOf x.1.octets == ownAddress
      && requestCode (bodyOf x.1.octets) == some code)

/-- R169: the request is performed, the ANSWER is written over it and queued, and the waiting MANAGE telegrams that no
request step takes are drained (log 3). The request's fields are its body less the code octet. -/
def answerRequest (code : Nat) (perform : List Byte → State → Performed) (s : State) : State :=
  match takeReceived .o s with
  | none => s
  | some (r, s) =>
    let p := perform ((bodyOf r.octets).drop 1) s
    drain (queueAnswer r.buffer (answerTag code p.result) (octet code) p.result p.data p.state)

/-- A request step. -/
def request (code : Nat) (perform : List Byte → State → Performed) (s : State) : Result :=
  arrival (requestWaits code) (answerRequest code perform) s

/-- Whether a number lies outside a range. -/
def outside (lo hi v : Nat) : Bool := decide (v < lo ∨ hi < v)

/-- R149: whether a point field that may be none is neither none nor a point number. -/
def badPoint (v : Nat) : Bool := decide (191 < v ∧ v ≠ 255)

end Sys2Proof.Machine
end

