-- ==== Sys2Proof/Machine/AccountRequests.lean ====
section
/-! DEFINITION. LOAD_METER, SET_CLOCK and COLLECT_DAY (R102 to R104, R106, R117). -/

namespace Sys2Proof.Machine

/-! ### LOAD_METER -/

/-- R105: the target of a meter kind and number. -/
def meterTargetOf (kind number : Nat) : Option MeterTarget :=
  match kind with
  | 0 => some (.outlet number)
  | 1 => some (.make number)
  | _ => none

/-- R106: the target's number lies in its range. -/
def MeterTarget.inRange : MeterTarget → Bool
  | .outlet d => !outside 1 6 d
  | .make m => !outside 1 2 m

/-- R105, R106: a meter as loaded into an empty record. Its last count is invalid; the number that field holds is 0
(log 40). -/
def loadedMeter (f : List Byte) (target : MeterTarget) : Meter :=
  { target := target, countPoint := octetAt f 3, periodPoint := pointField (octetAt f 4)
    pressurePoint := pointField (octetAt f 5), fixedPressure := field f 6 2
    temperaturePoint := pointField (octetAt f 8), pulseWeight := field f 9 4, deltaLimit := field f 13 2
    lastCount := 0, lastCountValid := false, rate := 0
    unclockedVolume := 0, unclockedEnergy := 0, unclockedFlags := HourFlags.clear }

/-- R106: a loaded record keeps its computed fields, but for a changed COUNT or PERIOD point. -/
def keepComputed (held loaded : Meter) : Meter :=
  { loaded with
    lastCount := held.lastCount
    lastCountValid := held.lastCountValid && held.countPoint == loaded.countPoint
    rate := if held.periodPoint = loaded.periodPoint then held.rate else 0
    unclockedVolume := held.unclockedVolume, unclockedEnergy := held.unclockedEnergy
    unclockedFlags := held.unclockedFlags }

/-- R106, ACCEPTED. -/
def storeMeter (f : List Byte) (s : State) : State :=
  match meterTargetOf (octetAt f 1) (octetAt f 2) with
  | none => s
  | some target =>
    let m := octetAt f 0
    let loaded := loadedMeter f target
    match s.meter m with
    | none => s.putMeter m loaded
    | some held => s.putMeter m (keepComputed held loaded)

/-- R106: another loaded record has the same target. -/
def targetTaken (m : Nat) (target : Option MeterTarget) (s : State) : Bool :=
  meterNumbers.any (fun k => k != m && (s.meter k).any (fun r => some r.target == target))

/-- R106. -/
def loadMeter (f : List Byte) (s : State) : Performed :=
  let m := octetAt f 0
  let target := meterTargetOf (octetAt f 1) (octetAt f 2)
  judge
    [ (f.length != 15 || target.isNone || octetAt f 3 == 255 || m == 255, .badFormat),
      (outside 1 8 m || !target.any MeterTarget.inRange || decide (191 < octetAt f 3) || badPoint (octetAt f 4)
        || badPoint (octetAt f 5) || decide (10000 < field f 6 2) || badPoint (octetAt f 8)
        || outside 1 100000 (field f 9 4) || outside 1 10000 (field f 13 2), .outOfRange),
      (targetTaken m target s, .duplicate) ]
    (storeMeter f) s

/-- LOAD_METER (R106). -/
def execLoadMeter (s : State) : Result := request 16 loadMeter s

/-! ### SET_CLOCK -/

/-- R102: the setting performed, and its result. -/
def setClockNow (dayCount timeOfDay : Nat) (force : Bool) (s : State) : ResultCode × State :=
  if !s.clock.valid then (.accepted, firstSetting dayCount timeOfDay s)
  else if force then (.accepted, setForced dayCount timeOfDay s)
  else setUnforced dayCount timeOfDay s

/-- R102 to R104. STEP-TOO-LARGE changes no state. -/
def setClock (f : List Byte) (s : State) : Performed :=
  let dayCount := field f 0 2
  let timeOfDay := field f 2 4
  match firstFailure
    [ (f.length != 7 || (boolOf (octetAt f 6)).isNone, .badFormat),
      (decide (86399 < timeOfDay), .outOfRange) ] with
  | some r => ⟨r, [], s⟩
  | none =>
    let set := setClockNow dayCount timeOfDay (octetAt f 6 == 1) s
    ⟨set.1, [], set.2⟩

/-- SET_CLOCK (R102). -/
def execSetClock (s : State) : Result := request 17 setClock s

/-! ### COLLECT_DAY -/

/-- R117, ACCEPTED. -/
def collect (s : State) : State :=
  clearAlarm (alarmKey .dayOverwritten 0)
    { s with previousBook := s.previousBook.map (fun b => { b with collected := true }) }

/-- R117. -/
def collectDay (f : List Byte) (s : State) : Performed :=
  judge
    [ (f.length != 2, .badFormat),
      (!s.previousBook.any (fun b => b.gasDay == field f 0 2), .unknownItem) ]
    collect s

/-- COLLECT_DAY (R117). -/
def execCollectDay (s : State) : Result := request 18 collectDay s

end Sys2Proof.Machine
end

