-- ==== Sys2Proof/Machine/DistrictRequests.lean ====
section
/-! DEFINITION. LOAD_DISTRICT, LOAD_PROFILE, STEP_NOW, DISTRICT_MODE and FOG, with STEP_TIMER_EXPIRY and FOG_TIMER_EXPIRY
(R81, R84, R85, R90, R98). -/

namespace Sys2Proof.Machine

/-! ### LOAD_DISTRICT -/

/-- R79: the configuration fields of a LOAD-DISTRICT written over a record. -/
def configured (f : List Byte) (r : District) : District :=
  { r with
    governor := octetAt f 1, minimum := field f 2 2, maximum := field f 4 2, drop := field f 6 2
    stepPeriod := field f 8 2, slew := field f 10 2, deadband := octetAt f 12
    outletMeter := pointField (octetAt f 13), kneeRate := field f 14 2, loadFactor := field f 16 2
    raiseCap := field f 18 2, tellTalePoint := pointField (octetAt f 20), tellTaleMinimum := field f 21 2
    gain := octetAt f 23, decay := field f 24 2, correctionCap := field f 26 2 }

/-- R80: the state of an empty record as it is loaded, before its configuration, timer and supply are written. -/
def District.fresh : District :=
  { governor := 0, minimum := 0, maximum := 0, drop := 0, stepPeriod := 0, slew := 0, deadband := 0
    outletMeter := none, kneeRate := 0, loadFactor := 0, raiseCap := 0, tellTalePoint := none, tellTaleMinimum := 0
    gain := 0, decay := 0, correctionCap := 0
    mode := .released, activeProfile := [], nextProfile := [], nextPending := false, generation := 0
    active := none, lastSent := none, lastTarget := none, correction := 0, fogRaise := 0, fogTimer := .stopped
    supplyLimit := 0, supplied := false, setFailed := false, reportedSetpoint := none, releasedMark := none
    stepTimer := .stopped }

/-- R98: a changed governor station: what the former governor had taken and reported is forgotten. No SETPOINT report is
owed for it (log 38). -/
def forgetGovernor (r : District) : District :=
  { r with lastSent := none, reportedSetpoint := none, releasedMark := none, setFailed := false }

/-- R98: a loaded record rewritten, its step timer restarted. A last-sent setpoint that becomes absent with the governor
station owes no SETPOINT report (log 38). -/
def reconfigure (f : List Byte) (r : District) : District :=
  let q := configured f r
  let q := { q with stepTimer := .running q.stepPeriod }
  if q.governor = r.governor then q else forgetGovernor q

/-- R80, R97, R98: an empty record loaded; its supply is formed at once, and UNSUPPLIED raises the alarm (log 31). -/
def firstLoad (d : Nat) (f : List Byte) (s : State) : State :=
  let q := configured f District.fresh
  let supply := supplyOf d q.drop s
  let q := { q with stepTimer := .running q.stepPeriod, supplyLimit := supply.1, supplied := supply.2 }
  let s := s.putDistrict d q
  if supply.2 then s else raiseAlarm (alarmKey .districtUnsupplied d) s

/-- R98, ACCEPTED. -/
def storeDistrict (f : List Byte) (s : State) : State :=
  let d := octetAt f 0
  match s.district d with
  | none => firstLoad d f s
  | some r => recomputeDistrict (s.putDistrict d (reconfigure f r)) d

/-- R79, R98: a field of a LOAD-DISTRICT out of its range. -/
def badDistrictField (f : List Byte) : Bool :=
  outside 1 6 (octetAt f 0) || outside 1 239 (octetAt f 1) || decide (10000 < field f 2 2)
    || decide (10000 < field f 4 2) || decide (field f 4 2 < field f 2 2) || decide (1000 < field f 6 2)
    || outside 30 600 (field f 8 2) || outside 1 1000 (field f 10 2) || decide (200 < octetAt f 12)
    || (outside 1 8 (octetAt f 13) && octetAt f 13 != 255) || decide (60000 < field f 14 2)
    || decide (1000 < field f 16 2) || decide (2000 < field f 18 2) || badPoint (octetAt f 20)
    || decide (10000 < field f 21 2) || decide (100 < octetAt f 23) || decide (1000 < field f 24 2)
    || decide (2000 < field f 26 2)

/-- R98: the governor station or the outlet meter is another loaded district's, or the station is a loaded holder's
valve station. -/
def districtTaken (d governor : Nat) (meter : Option Nat) (s : State) : Bool :=
  districtNumbers.any (fun k => k != d && (s.district k).any (fun r =>
      r.governor == governor || (meter.isSome && r.outletMeter == meter)))
    || (s.holderOfStation governor).isSome

/-- R98. -/
def loadDistrict (f : List Byte) (s : State) : Performed :=
  let d := octetAt f 0
  judge
    [ (f.length != 28, .badFormat),
      (badDistrictField f, .outOfRange),
      (districtTaken d (octetAt f 1) (pointField (octetAt f 13)) s, .duplicate),
      ((s.district d).any (fun r => r.mode == .auto), .inService) ]
    (storeDistrict f) s

/-- LOAD_DISTRICT (R98). -/
def execLoadDistrict (s : State) : Result := request 11 loadDistrict s

/-! ### LOAD_PROFILE -/

/-- The count breakpoints of a LOAD-PROFILE. -/
def breakpointsOf (f : List Byte) (count : Nat) : List Breakpoint :=
  (List.range count).map (fun i => ⟨field f (2 + 4 * i) 2, field f (4 + 4 * i) 2⟩)

/-- R84: whether breakpoints lie outside their ranges or do not strictly rise in time. -/
def badBreakpoints (bs : List Breakpoint) : Bool :=
  bs.any (fun b => decide (1439 < b.minute ∨ 10000 < b.pressure)) || !strictlyRising (bs.map (·.minute))

/-- R84, ACCEPTED. -/
def storeProfile (d : Nat) (bs : List Breakpoint) (s : State) : State :=
  match s.district d with
  | none => s
  | some r => s.putDistrict d { r with nextProfile := bs, nextPending := true }

/-- R84. -/
def loadProfile (f : List Byte) (s : State) : Performed :=
  let d := octetAt f 0
  let count := octetAt f 1
  let bs := breakpointsOf f count
  judge
    [ (f.length != 2 + 4 * count, .badFormat),
      (outside 1 6 d || decide (12 < count) || badBreakpoints bs, .outOfRange),
      ((s.district d).isNone, .unknownItem),
      (count == 0 && (s.district d).any (fun r => r.mode == .auto), .notAllowed) ]
    (storeProfile d bs) s

/-- LOAD_PROFILE (R84). -/
def execLoadProfile (s : State) : Result := request 12 loadProfile s

/-! ### STEP_NOW and STEP_TIMER_EXPIRY -/

/-- R85. -/
def stepNow (f : List Byte) (s : State) : Performed :=
  let d := octetAt f 0
  judge
    [ (f.length != 1, .badFormat),
      (outside 1 6 d, .outOfRange),
      ((s.district d).isNone, .unknownItem) ]
    (stepBoundary d) s

/-- STEP_NOW (R85). -/
def execStepNow (s : State) : Result := request 13 stepNow s

/-- STEP_TIMER_EXPIRY (R85). -/
def execStepTimerExpiry (d : Nat) (s : State) : Result :=
  arrival (fun s => (s.district d).any (fun r => r.stepTimer.runs)) (stepBoundary d) s

/-! ### DISTRICT_MODE -/

/-- The mode written. -/
def setMode (d : Nat) (m : Mode) (s : State) : State :=
  match s.district d with
  | none => s
  | some r => s.putDistrict d { r with mode := m }

/-- R81: each automatic SET waiting in the governor station's list is removed without report. -/
def dropAutomaticSets (station : Nat) (s : State) : State :=
  match s.station station with
  | none => s
  | some st => setList station (st.pendingList.filter (fun o => !(o.isSet && !o.fromOffice))) s

/-- R81: each office SET and office RELEASE waiting there is removed, head to tail, with SUPERSEDED owed. -/
def supersedeOfficeOrders (station : Nat) (s : State) : State :=
  match s.station station with
  | none => s
  | some st =>
    let named := fun o : Order => o.fromOffice && (o.isSet || o.isRelease)
    (st.pendingList.filter named).foldl (supersede .governor)
      (setList station (st.pendingList.filter (fun o => !named o)) s)

/-- R81: RELEASED is entered. -/
def enterReleased (d : Nat) (s : State) : State :=
  issueRelease d (setMode d .released (clearAlarm (alarmKey .districtShort d) s))

/-- R81: MANUAL is entered. -/
def enterManual (d : Nat) (r : District) (s : State) : State :=
  match r.mode with
  | .auto => setMode d .manual (dropAutomaticSets r.governor (clearAlarm (alarmKey .districtShort d) s))
  | _ => setMode d .manual s

/-- R81: AUTO is entered. -/
def enterAuto (d : Nat) (r : District) (s : State) : State :=
  let s := supersedeOfficeOrders r.governor s
  stepBoundary d (setMode d .auto (s.putDistrict d { r with correction := 0 }))

/-- R81, ACCEPTED. -/
def changeMode (d : Nat) (m : Mode) (s : State) : State :=
  match s.district d with
  | none => s
  | some r =>
    if r.mode = m then s
    else
      oweSetpoint d (match m with
        | .released => enterReleased d s
        | .manual => enterManual d r s
        | .auto => enterAuto d r s)

/-- R81: whether the profiles keep a district out of AUTO. -/
def profilesForbidAuto (r : District) : Bool :=
  r.activeProfile.isEmpty || (r.nextPending && r.nextProfile.isEmpty)

/-- R81. -/
def districtMode (f : List Byte) (s : State) : Performed :=
  let d := octetAt f 0
  let m := (modeOf (octetAt f 1)).getD .released
  judge
    [ (f.length != 2 || (modeOf (octetAt f 1)).isNone, .badFormat),
      (outside 1 6 d, .outOfRange),
      ((s.district d).isNone, .unknownItem),
      (m == .auto && (s.district d).any profilesForbidAuto, .notAllowed),
      (m == .auto && !s.clock.valid, .noClock) ]
    (changeMode d m) s

/-- DISTRICT_MODE (R81). -/
def execDistrictMode (s : State) : Result := request 14 districtMode s

/-! ### FOG and FOG_TIMER_EXPIRY -/

/-- R90: the fog raise and its expiry written. -/
def setFog (raise duration : Nat) (s : State) (d : Nat) : State :=
  match s.district d with
  | none => s
  | some r => s.putDistrict d
      { r with
        fogRaise := raise
        fogTimer := if raise = 0 ∨ duration = 0 then .stopped else .running duration }

/-- R90: the loaded districts a FOG names: one, or all for 0. -/
def fogDistricts (d : Nat) (s : State) : List Nat :=
  (if d = 0 then districtNumbers else [d]).filter (fun k => (s.district k).isSome)

/-- R90. -/
def fog (f : List Byte) (s : State) : Performed :=
  let d := octetAt f 0
  let raise := field f 1 2
  let duration := field f 3 2
  judge
    [ (f.length != 5, .badFormat),
      (decide (6 < d) || decide (1000 < raise) || decide (720 < duration), .outOfRange),
      ((fogDistricts d s).isEmpty, .unknownItem) ]
    (fun s => (fogDistricts d s).foldl (setFog raise duration) s) s

/-- FOG (R90). -/
def execFog (s : State) : Result := request 15 fog s

/-- FOG_TIMER_EXPIRY (R90): F becomes 0 and the expiry is stopped. -/
def execFogTimerExpiry (d : Nat) (s : State) : Result :=
  arrival (fun s => (s.district d).any (fun r => r.fogTimer.runs)) (fun s => setFog 0 0 s d) s

end Sys2Proof.Machine
end

