-- ==== Sys2Proof/Machine/HolderRequests.lean ====
section
/-! DEFINITION. LOAD_HOLDER, LOAD_LIFT and HOLDER_SERVICE (R39 to R42, R59). -/

namespace Sys2Proof.Machine

/-! ### LOAD_HOLDER -/

/-- R22: the computed fields as they stand after LOAD-HOLDER or LOAD-LIFT. -/
def Holder.cleared (r : Holder) : Holder :=
  { r with
    rise := none, stage := none, actualVolume := none, stock := none, pressure := none, quality := .stale
    condition := .normal, blind := false, overTop := false }

/-- R41: the lift entries from stage 1 to the new stage count are kept; those above become empty. -/
def keptLifts (stageCount : Nat) (lifts : Vector (Option Lift) 4) : Vector (Option Lift) 4 :=
  Vector.ofFn (fun i : Fin 4 => if i.val < stageCount then lifts[i] else none)

/-- R41: the record a LOAD-HOLDER writes, over the lift entries held; the holder is OUT. -/
def loadedHolder (f : List Byte) (lifts : Vector (Option Lift) 4) : Holder :=
  Holder.cleared
    { valveStation := octetAt f 1, gaugePoint := octetAt f 2
      pressurePoint := pointField (octetAt f 3), temperaturePoint := pointField (octetAt f 4)
      baseVolume := field f 5 4, stageCount := octetAt f 9, topRise := field f 10 2
      landedMark := field f 12 2, lowMark := field f 14 2, highMark := field f 16 2, topMark := field f 18 2
      hysteresis := field f 20 2, permitted := districtSetOf (f.drop 22)
      inReckoning := false, lifts := keptLifts (octetAt f 9) lifts
      rise := none, stage := none, actualVolume := none, stock := none, pressure := none, quality := .stale
      condition := .normal, blind := false, overTop := false }

/-- R42: a Routing Record as it comes into being. -/
def Routing.fresh : Routing := ⟨Vector.replicate 7 .unknown, DistrictSet.empty, [], none⟩

/-- R42: the Routing Record of a newly loaded holder, and the OUT withdrawal at its station. The outlet set last handed
over is emptied (R94). -/
def createRouting (h station : Nat) (s : State) : State :=
  withdrawFromNewStation station (writeOutletSet h DistrictSet.empty (s.putRouting h Routing.fresh))

/-- R59: every CLOSE-FAILED of the holder is cleared, in ascending valve number (log 34). -/
def clearCloseFailures (h : Nat) (s : State) : State :=
  [0, 1, 2, 3, 4, 5, 6].foldl (fun s v => clearAlarm ⟨.closeFailed, h, some v⟩ s) s

/-- R59: the valve station address changed. The close in hand stays in the old station's slot or list as an ordinary
order (order of the actions: log 26). -/
def moveRouting (h station : Nat) (former : DistrictSet) (s : State) : State :=
  let s := clearCloseFailures h (s.putRouting h Routing.fresh)
  let s := if former = DistrictSet.empty then s else handOutletSet h DistrictSet.empty s
  withdrawFromNewStation station s

/-- R41, R42, R59, ACCEPTED. -/
def storeHolder (f : List Byte) (s : State) : State :=
  let h := octetAt f 0
  let station := octetAt f 1
  match s.holder h, s.routing h with
  | some r, some q =>
    let s := formYardStock (s.putHolder h (loadedHolder f r.lifts))
    if r.valveStation = station then s else moveRouting h station q.outletSet s
  | _, _ => createRouting h station (formYardStock (s.putHolder h (loadedHolder f (Vector.replicate 4 none))))

/-- R41: a field of a LOAD-HOLDER out of its range. -/
def badHolderField (f : List Byte) : Bool :=
  outside 1 8 (octetAt f 0) || outside 1 239 (octetAt f 1) || decide (191 < octetAt f 2) || badPoint (octetAt f 3)
    || badPoint (octetAt f 4) || decide (10000000 < field f 5 4) || outside 1 4 (octetAt f 9)
    || outside 1 65000 (field f 10 2) || decide (65000 < field f 12 2) || decide (65000 < field f 14 2)
    || decide (65000 < field f 16 2) || decide (65000 < field f 18 2) || decide (500 < field f 20 2)

/-- R41: the valve station is another loaded holder's, or a loaded district's governor station. -/
def valveStationTaken (h station : Nat) (s : State) : Bool :=
  holderNumbers.any (fun k => k != h && (s.holder k).any (fun r => r.valveStation == station))
    || (s.districtOfStation station).isSome

/-- R41. -/
def loadHolder (f : List Byte) (s : State) : Performed :=
  let h := octetAt f 0
  judge
    [ (f.length != 28 || octetAt f 2 == 255 || !allBits (f.drop 22), .badFormat),
      (badHolderField f, .outOfRange),
      (valveStationTaken h (octetAt f 1) s, .duplicate),
      ((s.holder h).any (·.inReckoning), .inService) ]
    (storeHolder f) s

/-- LOAD_HOLDER (R41). -/
def execLoadHolder (s : State) : Result := request 8 loadHolder s

/-! ### LOAD_LIFT -/

/-- R41, ACCEPTED: one lift entry is filled, and the computed fields take the values of R22. -/
def storeLift (h k : Nat) (l : Lift) (s : State) : State :=
  match s.holder h with
  | none => s
  | some r => formYardStock (s.putHolder h { r.cleared with lifts := recordSet r.lifts k (some l) })

/-- R41. -/
def loadLift (f : List Byte) (s : State) : Performed :=
  let h := octetAt f 0
  let k := octetAt f 1
  let l : Lift := ⟨field f 2 2, field f 4 4, field f 8 2⟩
  judge
    [ (f.length != 10, .badFormat),
      (outside 1 8 h || outside 1 4 k || decide (65000 < l.pickup) || (k == 1 && l.pickup != 0)
        || outside 1 400000 l.area || decide (5000 < l.pressure), .outOfRange),
      (!(s.holder h).any (fun r => decide (k ≤ r.stageCount)), .unknownItem),
      ((s.holder h).any (·.inReckoning), .inService) ]
    (storeLift h k l) s

/-- LOAD_LIFT (R41). -/
def execLoadLift (s : State) : Result := request 9 loadLift s

/-! ### HOLDER_SERVICE -/

/-- R39: whether HOLDER-SERVICE IN is allowed: the lift table complete, the marks consistent, and a LEVEL gauge point
loaded. -/
def mayComeIn (r : Holder) (s : State) : Bool :=
  r.complete && r.consistent && (s.point r.gaugePoint).any (fun p => p.kind == .level)

/-- R39, R40, ACCEPTED: the reckoning state carried. A request for the state the holder has changes nothing. -/
def setService (h : Nat) (enter : Bool) (s : State) : State :=
  match s.holder h with
  | none => s
  | some r => if r.inReckoning = enter then s else if enter then bringIn h s else takeOut h s

/-- R39. -/
def holderService (f : List Byte) (s : State) : Performed :=
  let h := octetAt f 0
  let enter := octetAt f 1 == 1
  judge
    [ (f.length != 2 || (boolOf (octetAt f 1)).isNone, .badFormat),
      (outside 1 8 h, .outOfRange),
      ((s.holder h).isNone, .unknownItem),
      (enter && !(s.holder h).any (fun r => mayComeIn r s), .notAllowed) ]
    (setService h enter) s

/-- HOLDER_SERVICE (R39, R40). -/
def execHolderService (s : State) : Result := request 10 holderService s

end Sys2Proof.Machine
end

