-- ==== Sys2Proof/Machine/Local.lean ====
section
/-! DEFINITION. The Local Converter's timers and scans: SETTLE_TIMER_EXPIRY, SCAN_TIMER_EXPIRY and SCAN_COMPLETE (R13 to
R15). -/

namespace Sys2Proof.Machine

/-- R13, R14: SETTLING is left for READY. The settle timer, expired in READY, is held as one that does not run, and READY
tells it from a stopped one (log 45). -/
def settle (s : State) : State :=
  { s with localConverter := { s.localConverter with running := .ready, settleTimer := .stopped } }

/-- SETTLE_TIMER_EXPIRY (R14). -/
def execSettleTimerExpiry (s : State) : Result := arrival (fun s => s.localConverter.settleTimer.runs) settle s

/-- R14: the scan timer restarts at the scan period and a scan begins. -/
def beginScan (s : State) : State :=
  { s with localConverter :=
      { s.localConverter with scanTimer := .running s.localConverter.scanPeriod, scanning := true } }

/-- SCAN_TIMER_EXPIRY (R14). -/
def execScanTimerExpiry (s : State) : Result := arrival (fun s => s.localConverter.scanTimer.runs) beginScan s

/-- R14: the raw value of a conversion code. -/
def scanRaw (resolution code : Nat) : Nat := code * (65536 / 2 ^ resolution)

/-- R14: the entry quality of a completed scan: SUSPECT in SETTLING, GOOD in READY. -/
def scanQuality (c : LocalConverter) : Nat :=
  match c.running with
  | .settling => 1
  | _ => 0

/-- R15: the entries of a local sample, channels 0 to 3 in order. -/
def scanEntries (c : LocalConverter) (codes : List Nat) : List RawEntry :=
  (codes.zipIdx 0).map (fun p => ⟨p.2, scanQuality c, scanRaw c.resolution p.1⟩)

/-- R15: a local sample: source 240, destination 0. -/
def localSample (c : LocalConverter) (codes : List Nat) : List Byte :=
  frame officeAddress ownAddress kindSample
    (octet codes.length :: (scanEntries c codes).flatMap rawOctets)

/-- R15: a rewritten local sample takes a free general buffer, uncharged, and joins the office ROUTINE queue; with none
free it is dropped. -/
def queueLocal (octets : List Byte) (s : State) : State :=
  match takeGeneral none s with
  | none => s
  | some (b, s) => enqueue .o false ⟨b, octets, .plain⟩ (holdingTest s)

/-- R14, R15: a scan completes. -/
def finishScan (codes : List Nat) (s : State) : State :=
  let sample := localSample s.localConverter codes
  let s := { s with localConverter := { s.localConverter with scanning := false } }
  let s := convertSample ownAddress (bodyOf sample) s
  match officeCopy sample s with
  | none => s
  | some octets => queueLocal octets s

/-- R14: a scan is in progress, and each code is one the resolution gives (log 22). -/
def scanMayComplete (codes : List Nat) (s : State) : Bool :=
  s.localConverter.scanning && codes.all (fun c => decide (c < 2 ^ s.localConverter.resolution))

/-- SCAN_COMPLETE (R14). -/
def execScanComplete (code0 code1 code2 code3 : Nat) (s : State) : Result :=
  arrival (scanMayComplete [code0, code1, code2, code3]) (finishScan [code0, code1, code2, code3]) s

end Sys2Proof.Machine
end

