-- ==== Sys2Proof/Machine/Management.lean ====
section
/-! DEFINITION. LOAD_SETTINGS, ACK_ALARM and RESET (R165, R171 to R173). -/

namespace Sys2Proof.Machine

/-! ### LOAD_SETTINGS -/

/-- Whether the octet at an offset is 1. -/
def isOn (f : List Byte) (i : Nat) : Bool := octetAt f i == 1

/-- R172: the record carried, its codes defined. -/
def settingsOf (f : List Byte) : Option Settings :=
  match poolModeOf (octetAt f 5), ratioOf (octetAt f 9), ratioOf (octetAt f 10), ratioOf (octetAt f 11) with
  | some mode, some o, some n, some s =>
    some
      { declaredCv := field f 0 2, startHour := octetAt f 2
        barometerPoint := pointField (octetAt f 3), calorimeterPoint := pointField (octetAt f 4)
        poolMode := mode, holdMark := octetAt f 6, goMark := octetAt f 7, holdDuration := octetAt f 8
        ratioO := o, ratioN := n, ratioS := s, guardN := octetAt f 12, guardS := octetAt f 13
        enables := ⟨isOn f 14, isOn f 15, isOn f 16, isOn f 17, isOn f 18, isOn f 19⟩
        reportEnables := Vector.ofFn (fun i : Fin 14 => isOn f (20 + i.val)) }
  | _, _, _, _ => none

/-- R171, R172: a field out of its range; a go mark not above the hold mark is out of range. -/
def badSettings (f : List Byte) : Bool :=
  outside 10000 30000 (field f 0 2) || decide (23 < octetAt f 2) || badPoint (octetAt f 3) || badPoint (octetAt f 4)
    || outside 4 80 (octetAt f 6) || outside (octetAt f 6 + 1) 88 (octetAt f 7) || outside 1 60 (octetAt f 8)
    || outside 5 255 (octetAt f 12) || outside 5 255 (octetAt f 13)

/-- R172, ACCEPTED: the record is replaced whole, and the holding test is made at once. -/
def storeSettings (x : Settings) (s : State) : State := holdingTest { s with settings := x }

/-- R172. -/
def loadSettings (f : List Byte) (s : State) : Performed :=
  judge
    [ (f.length != 34 || (settingsOf f).isNone || !allBits (f.drop 14), .badFormat),
      (badSettings f, .outOfRange) ]
    (fun s => match settingsOf f with
      | none => s
      | some x => storeSettings x s) s

/-- LOAD_SETTINGS (R172). -/
def execLoadSettings (s : State) : Result := request 1 loadSettings s

/-! ### ACK_ALARM -/

/-- R162: the subject's range by kind. -/
def subjectInRange (k : AlarmKind) (subject : Nat) : Bool :=
  match k with
  | .overTop => !outside 1 8 subject
  | .holderHigh => !outside 1 8 subject
  | .holderTop => !outside 1 8 subject
  | .holderLow => !outside 1 8 subject
  | .holderLanded => !outside 1 8 subject
  | .holderBlind => !outside 1 8 subject
  | .closeFailed => !outside 1 8 subject
  | .orderFailed => !outside 1 6 subject
  | .districtShort => !outside 1 6 subject
  | .districtUnsupplied => !outside 1 6 subject
  | .meterJump => !outside 1 8 subject
  | .dayOverwritten => subject == 0
  | .stationSilent => !outside 1 239 subject
  | .stationMoved => !outside 1 239 subject

/-- R165: the record an ACK-ALARM names; the valve is read only for CLOSE-FAILED. -/
def ackKey (k : AlarmKind) (subject valve : Nat) : AlarmKey :=
  ⟨k, subject, if k = .closeFailed then some valve else none⟩

/-- R165, ACCEPTED: a CLEARED-UNACKED record, or one of STATION-MOVED, is removed; any other is acknowledged. -/
def acknowledge (key : AlarmKey) (s : State) : State :=
  match findAlarm key s with
  | none => s
  | some r =>
    if r.state = .clearedUnacked ∨ key.kind = .stationMoved then settleAlarmOverflow (dropAlarm r false s)
    else { s with alarms := s.alarms.map (fun q => if q.key == key then { q with acknowledged := true } else q) }

/-- R165. The kind is read before it is used; a code outside 1 to 14 is BAD-FORMAT. -/
def ackAlarm (f : List Byte) (s : State) : Performed :=
  let kind := (alarmKindOf (octetAt f 0)).getD .overTop
  let subject := octetAt f 1
  let valve := octetAt f 2
  let count := octetAt f 3
  let key := ackKey kind subject valve
  judge
    [ (f.length != 4 || (alarmKindOf (octetAt f 0)).isNone, .badFormat),
      (!subjectInRange kind subject || (kind == .closeFailed && decide (6 < valve)) || count == 0, .outOfRange),
      ((findAlarm key s).isNone, .unknownItem),
      ((findAlarm key s).any (fun r => r.count != count), .staleAck) ]
    (acknowledge key) s

/-- ACK_ALARM (R165). -/
def execAckAlarm (s : State) : Result := request 20 ackAlarm s

/-! ### RESET -/

/-- R173, ACCEPTED: the unit enters RESET-PENDING with the restart kind held; its reset timer runs. -/
def pendRestart (k : RestartKind) (s : State) : State := { s with unit := .resetPending k }

/-- R173. -/
def resetRequest (f : List Byte) (s : State) : Performed :=
  let kind := (restartKindOf (octetAt f 0)).getD .warm
  judge [ (f.length != 1 || (restartKindOf (octetAt f 0)).isNone, .badFormat) ] (pendRestart kind) s

/-- RESET (R173). -/
def execReset (s : State) : Result := request 21 resetRequest s

end Sys2Proof.Machine
end

