-- ==== Sys2Proof/Machine/PointRequests.lean ====
section
/-! DEFINITION. LOAD_POINT, DROP_POINT, LOAD_VAPOUR and LOAD_LOCAL (R14, R16 to R19). -/

namespace Sys2Proof.Machine

/-! ### LOAD_POINT and DROP_POINT -/

/-- R16: a loaded point in service: the gauge, pressure or temperature point of a holder IN reckoning, or the tell-tale
point of a district in AUTO. -/
def pointInService (n : Nat) (s : State) : Bool :=
  (s.point n).isSome &&
    (holderNumbers.any (fun h => (s.holder h).any (fun r =>
        r.inReckoning && (r.gaugePoint == n || r.pressurePoint == some n || r.temperaturePoint == some n)))
      || districtNumbers.any (fun d => (s.district d).any (fun r =>
        r.mode == .auto && r.tellTalePoint == some n)))

/-- R7: the quality change to NONE of a point that was held (log 29). -/
def handNone (n : Nat) (former : Option Point) (s : State) : State :=
  match former with
  | none => s
  | some p => handUpdate ⟨n, p.kind, none, .none, false⟩ s

/-- R2: a point as loaded. The limits of COUNT and PERIOD points are stored as 0. -/
def loadedPoint (f : List Byte) (kind : PointKind) (mode : ForwardMode) : Point :=
  let level := kind = .level
  { station := octetAt f 1, channel := octetAt f 2, kind := kind
    lo := if level then signedField f 5 4 else 0
    hi := if level then signedField f 9 4 else 0
    rawMin := if level then field f 13 2 else 0
    rawMax := if level then field f 15 2 else 0
    forward := mode, lastRaw := none, value := none, quality := .none, updated := none }

/-- R16, ACCEPTED. -/
def storePoint (f : List Byte) (s : State) : State :=
  match pointKindOf (octetAt f 3), forwardModeOf (octetAt f 4) with
  | some kind, some mode =>
    let n := octetAt f 0
    handNone n (s.point n) (s.putPoint n (some (loadedPoint f kind mode)))
  | _, _ => s

/-- R16: whether a LEVEL point's limits are out of order. -/
def badLimits (f : List Byte) : Bool :=
  decide (octetAt f 3 = PointKind.level.code ∧ (signedField f 9 4 ≤ signedField f 5 4 ∨ field f 15 2 < field f 13 2))

/-- R16. -/
def loadPoint (f : List Byte) (s : State) : Performed :=
  let n := octetAt f 0
  let station := octetAt f 1
  let channel := octetAt f 2
  judge
    [ (f.length != 17 || (pointKindOf (octetAt f 3)).isNone || (forwardModeOf (octetAt f 4)).isNone || n == 255,
        .badFormat),
      (decide (191 < n) || outside 1 240 station || decide (15 < channel) || (station == 240 && decide (3 < channel))
        || badLimits f, .outOfRange),
      ((findPoint station channel s).any (· != n), .duplicate),
      (pointInService n s, .inService) ]
    (storePoint f) s

/-- LOAD_POINT (R16). -/
def execLoadPoint (s : State) : Result := request 4 loadPoint s

/-- R17, ACCEPTED. -/
def emptyPoint (n : Nat) (s : State) : State := handNone n (s.point n) (s.putPoint n none)

/-- R17. -/
def dropPoint (f : List Byte) (s : State) : Performed :=
  let n := octetAt f 0
  judge
    [ (f.length != 1 || n == 255, .badFormat),
      (decide (191 < n), .outOfRange),
      ((s.point n).isNone, .unknownItem),
      (pointInService n s, .inService) ]
    (emptyPoint n) s

/-- DROP_POINT (R17). -/
def execDropPoint (s : State) : Result := request 5 dropPoint s

/-! ### LOAD_VAPOUR -/

/-- The count pressures from an offset. -/
def pressuresOf (f : List Byte) (count : Nat) : List Nat := (List.range count).map (fun i => field f (2 + 2 * i) 2)

/-- R18, ACCEPTED: consecutive entries filled. -/
def fillVapour (first : Nat) (pressures : List Nat) (s : State) : State :=
  { s with vapour := (pressures.zipIdx first).foldl (fun v p => tableSet v p.2 (some p.1)) s.vapour }

/-- R18. -/
def loadVapour (f : List Byte) (s : State) : Performed :=
  let first := octetAt f 0
  let count := octetAt f 1
  let pressures := pressuresOf f count
  judge
    [ (f.length != 2 + 2 * count, .badFormat),
      (outside 1 27 count || decide (40 < first) || decide (41 < first + count) || pressures.any (fun p => decide (10000 < p)),
        .outOfRange) ]
    (fillVapour first pressures) s

/-- LOAD_VAPOUR (R18). -/
def execLoadVapour (s : State) : Result := request 6 loadVapour s

/-! ### LOAD_LOCAL -/

/-- R14: the enabling sequence; a scan in progress is abandoned. -/
def enablingSequence (c : LocalConverter) : LocalConverter :=
  { c with
    running := .settling, settleTimer := .running Config.settleSeconds, scanTimer := .running c.scanPeriod
    scanning := false }

/-- R19: the converter disabled. -/
def disabledConverter (c : LocalConverter) : LocalConverter :=
  { c with running := .disabled, settleTimer := .stopped, scanTimer := .stopped, scanning := false }

/-- R19, ACCEPTED: the settings are stored, and the converter acts by the state before and the enable carried. -/
def setLocal (enable : Bool) (resolution scanPeriod : Nat) (s : State) : State :=
  let c := { s.localConverter with enabled := enable, resolution := resolution, scanPeriod := scanPeriod }
  if enable then { s with localConverter := enablingSequence c }
  else
    match s.localConverter.running with
    | .disabled => { s with localConverter := c }
    | _ => stalePoints ownAddress { s with localConverter := disabledConverter c }

/-- R19. -/
def loadLocal (f : List Byte) (s : State) : Performed :=
  let resolution := octetAt f 1
  let scanPeriod := octetAt f 2
  judge
    [ (f.length != 3 || (boolOf (octetAt f 0)).isNone, .badFormat),
      (!([8, 10, 12].contains resolution) || outside 1 60 scanPeriod, .outOfRange) ]
    (setLocal (octetAt f 0 == 1) resolution scanPeriod) s

/-- LOAD_LOCAL (R19). -/
def execLoadLocal (s : State) : Result := request 7 loadLocal s

end Sys2Proof.Machine
end

