-- ==== Sys2Proof/Machine/Restart.lean ====
section
/-! DEFINITION. Restarts: their beginning, their completion, and the meanings of POWER_ON, RESTART_COMPLETE and
RESET_TIMER_EXPIRY (R173, R174, and each chapter's restart rules). -/

namespace Sys2Proof.Machine

/-! ### The beginning of a restart -/

/-- R139, R146: a port from the beginning of a restart: discarding without the drop mark and separating, the timers still
to be started at the end (log 23). -/
def PortState.restarted (q : PortState) : PortState :=
  { q with
    receiver := .discarding false, frameEnd := .stopped, transmitter := .separating, separation := .stopped
    urgent := [], routine := [], runCount := 0 }

/-- R139: the figures and the last fault of a port after power-on. -/
def PortState.cleared (q : PortState) : PortState :=
  { q with good := 0, bad := 0, dropped := 0, sent := 0, lastFault := .none }

/-- R150, R158: all buffers free, not holding. -/
def Line.restarted (l : Line) : Line :=
  { portO := l.portO.restarted, portN := l.portN.restarted, portS := l.portS.restarted
    received := [], freeGeneral := Config.generalBuffers, freeReserve := Config.reserveBuffers
    chargeO := 0, chargeN := 0, chargeS := 0, holding := .notHolding, repeatTimer := .stopped }

/-- R61, R120: a directory entry over a WARM restart. -/
def Station.restarted (e : Station) : Station :=
  { e with liveness := .unheard, waitingTimer := .stopped, slot := .empty, pendingList := [] }

/-- R1: a point over a WARM restart. -/
def Point.restarted (p : Point) : Point :=
  match p.quality with
  | .none => p
  | _ => { p with quality := .stale }

/-- R13: the Local Converter over a WARM restart: a scan in progress is abandoned. -/
def LocalConverter.restarted (c : LocalConverter) : LocalConverter := disabledConverter c

/-- R20: a Holder Record over a WARM restart. -/
def Holder.restarted (r : Holder) : Holder := { r with quality := .stale, blind := r.blind || r.inReckoning }

/-- R42: a Routing Record over a WARM restart: no close is in hand in the Order Unit. -/
def Routing.restarted (q : Routing) : Routing := { q with inHand := none }

/-- R78: the step timer of a district is restarted at the end of the restart. -/
def District.restarted (r : District) : District := { r with stepTimer := .stopped }

/-- Every loaded record of a table changed. -/
def mapRecords {α : Type} {n : Nat} (f : α → α) (t : Vector (Option α) n) : Vector (Option α) n := t.map (Option.map f)

/-- R174: the beginning of a WARM restart. -/
def beginWarm (s : State) : State :=
  { s with
    unit := .restarting .warm
    lastCause := .warm
    line := s.line.restarted
    claims := []
    directory := s.directory.map Station.restarted
    strangers := []
    points := mapRecords Point.restarted s.points
    localConverter := s.localConverter.restarted
    holders := mapRecords Holder.restarted s.holders
    routings := mapRecords Routing.restarted s.routings
    districts := mapRecords District.restarted s.districts
    backlog := [] }

/-- R174: the beginning of a POWER or COLD restart: every piece of state takes its power-on value. The commands that
wait stay in the model's queue, and its counter of free values runs on (log 8). -/
def beginAfresh (cause : RestartCause) (s : State) : State :=
  { State.reset with
    pending := s.pending
    freeCount := s.freeCount
    unit := .restarting cause
    lastCause := cause
    line :=
      { Line.reset with
        portO := Line.reset.portO.restarted, portN := Line.reset.portN.restarted, portS := Line.reset.portS.restarted }
    backlog := [] }

/-- R173, R174: a restart of a cause begins. -/
def beginRestart (cause : RestartCause) (s : State) : State :=
  match cause with
  | .power => beginAfresh .power s
  | .cold => beginAfresh .cold s
  | .warm => beginWarm s

/-- R173: the cause a restart kind is. -/
def RestartKind.cause : RestartKind → RestartCause
  | .warm => .warm
  | .cold => .cold

/-- POWER_ON (R173): in any state of the unit; a pending restart of either kind is replaced. -/
def execPowerOn (s : State) : Result := .next (beginRestart .power s)

/-- R173: the restart pending, if any, begins. -/
def beginPending (s : State) : State :=
  match s.unit with
  | .resetPending k => beginRestart k.cause s
  | _ => s

/-- RESET_TIMER_EXPIRY (R173): the reset timer runs in RESET-PENDING. -/
def execResetTimerExpiry (s : State) : Result :=
  arrival (fun s => match s.unit with
    | .resetPending _ => true
    | _ => false) beginPending s

/-! ### The completion of a restart -/

/-- R145, R146: the frame-end and separation timers of a port started. -/
def PortState.started (separation : Nat) (q : PortState) : PortState :=
  { q with frameEnd := .running Config.frameEndMs, separation := .running separation }

/-- R145: the separation of each port. -/
def separationOf (p : Port) (s : State) : Nat :=
  match p with
  | .o => Config.separationMs
  | .n => s.settings.guardN
  | .s => s.settings.guardS

/-- R139, R146: the port timers started. -/
def startPorts (s : State) : State :=
  { s with line := { s.line with
      portO := s.line.portO.started (separationOf .o s)
      portN := s.line.portN.started (separationOf .n s)
      portS := s.line.portS.started (separationOf .s s) } }

/-- R120: the waiting timers started. -/
def startWaiting (s : State) : State :=
  { s with directory := s.directory.map (fun e =>
      { e with waitingTimer := if e.waitingTime = 0 then .stopped else .running e.waitingTime }) }

/-- R13: the enabling sequence, if the Local Converter is enabled. -/
def startLocal (s : State) : State :=
  if s.localConverter.enabled then { s with localConverter := enablingSequence s.localConverter } else s

/-- R78: the step timers restarted. -/
def startSteps (s : State) : State :=
  { s with districts := mapRecords (fun r => { r with stepTimer := .running r.stepPeriod }) s.districts }

/-- R166, R174: the START entry, then an entry for each alarm record whose report-owed flag is set, in list order. -/
def restartEntries (cause : RestartCause) (s : State) : State :=
  { s with backlog :=
      ⟨.full (.start cause), none⟩
        :: (s.alarms.filter (·.reportOwed)).map (fun r => ⟨.reference (.alarm r.key), none⟩) }

/-- R42: the front entry of a non-empty closure sequence is handed to the Order Unit, which then sends. -/
def resumeClosure (s : State) (h : Nat) : State :=
  match s.holder h with
  | none => s
  | some r => serve r.valveStation (handOver h s)

/-- R174: the completion of a restart. -/
def completeRestart (s : State) : State :=
  match s.unit with
  | .restarting cause =>
    let s := startSteps (startLocal (startWaiting (startPorts s)))
    holderNumbers.foldl resumeClosure (restartEntries cause { s with unit := .ready })
  | _ => s

/-- RESTART_COMPLETE (R174). -/
def execRestartComplete (s : State) : Result := whenArises (isRestarting s) completeRestart s

end Sys2Proof.Machine
end

