-- ==== Sys2Proof/Machine/Ports.lean ====
section
/-! DEFINITION. The line ports: RECEPTION_START, OCTET_ARRIVES, FRAME_END, TRANSMIT_START, TRANSMISSION_COMPLETE and
SEPARATION_EXPIRY (R139 to R145), and the pool's REPEAT_TIMER_EXPIRY (R160). -/

namespace Sys2Proof.Machine

/-! ### Receiving (R140) -/

/-- The receiver written, with its frame-end timer running. -/
def setReceiver (p : Port) (r : Receiver) (s : State) : State :=
  s.modPort p (fun q => { q with receiver := r, frameEnd := .running Config.frameEndMs })

/-- R140: the receiver of a port is IDLE. -/
def receiverIdle (p : Port) (s : State) : Bool :=
  match (s.port p).receiver with
  | .idle => true
  | _ => false

/-- R140: the first octet of a frame. -/
def startReception (p : Port) (o : Byte) (faulty : Bool) (s : State) : State :=
  match takeGeneral (some p) s with
  | some (b, s) => holdingTest (setReceiver p (.receiving b [o] 1 faulty) s)
  | none => setReceiver p (.discarding true) s

/-- RECEPTION_START (R140). -/
def execReceptionStart (p : Port) (o : Byte) (faulty : Bool) (s : State) : Result :=
  arrival (receiverIdle p) (startReception p o faulty) s

/-- R140: a further octet of a frame. -/
def takeOctet (p : Port) (o : Byte) (faulty : Bool) (s : State) : State :=
  match (s.port p).receiver with
  | .idle => s
  | .receiving b octets count mark =>
    let octets := if count < Config.bufferOctets then octets ++ [o] else octets
    setReceiver p (.receiving b octets (count + 1) (mark || faulty)) s
  | .discarding mark => setReceiver p (.discarding mark) s

/-- OCTET_ARRIVES (R140): an octet that is not the first of its frame. -/
def execOctetArrives (p : Port) (o : Byte) (faulty : Bool) (s : State) : Result :=
  arrival (fun s => !receiverIdle p s) (takeOctet p o faulty) s

/-! ### The end of a frame (R141, R142) -/

/-- R142: kinds valid on a port. -/
def kindValid (p : Port) (kind : Nat) : Bool :=
  match p with
  | .o => kind == kindCommand || kind == kindManage
  | _ => kind == kindSample || kind == kindReply

/-- R142: sources valid on a port. -/
def sourceValid (p : Port) (source : Nat) : Bool :=
  match p with
  | .o => source == officeAddress
  | _ => isFieldAddress source

/-- R141, R142: destinations valid on a port. -/
def destinationValid (p : Port) (destination : Nat) : Bool :=
  match p with
  | .o => isFieldAddress destination || destination == ownAddress || destination == allStations
  | _ => destination == officeAddress || isFieldAddress destination || destination == ownAddress

/-- R141, order 1. -/
def badLength (octets : List Byte) (count : Nat) : Bool :=
  decide (count < 6 ∨ 64 < count ∨ 58 < bodyLengthOf octets ∨ count ≠ bodyLengthOf octets + 6)

/-- R141, order 2; R148. -/
def badCheck (octets : List Byte) (faultMark : Bool) : Bool :=
  let n := octets.length - 2
  faultMark || (check (octets.take n)).toNat != numberOf (octets.drop n)

/-- R141: the fault of a frame held in a buffer, by the first check that fails. -/
def frameFault (p : Port) (octets : List Byte) (count : Nat) (faultMark : Bool) : LineFault :=
  if badLength octets count then .badLength
  else if badCheck octets faultMark then .badCheck
  else if !kindValid p (kindOf octets) then .badKind
  else if !(sourceValid p (sourceOf octets) && destinationValid p (destinationOf octets)) then .badAddress
  else .none

/-- R141: a good telegram is counted and handed to the Relay Unit in its buffer; port O's telegrams without a request step
are drained (log 3). -/
def goodTelegram (p : Port) (b : Buffer) (octets : List Byte) (s : State) : State :=
  let s := s.modPort p (fun q => { q with good := countUp q.good })
  let s := { s with line := { s.line with received := s.line.received ++ [⟨p, b, octets⟩] } }
  match p with
  | .o => drain s
  | _ => s

/-- R141: a bad telegram: its buffer is freed, the bad figure counts it, and the last fault is written. -/
def badTelegram (p : Port) (b : Buffer) (fault : LineFault) (s : State) : State :=
  freeBuffer b (s.modPort p (fun q => { q with bad := countUp q.bad, lastFault := fault }))

/-- R140: the receiver enters IDLE, its timer stopped. -/
def idleReceiver (p : Port) (s : State) : State :=
  s.modPort p (fun q => { q with receiver := .idle, frameEnd := .stopped })

/-- R140, R141: the frame ends. -/
def endFrame (p : Port) (s : State) : State :=
  match (s.port p).receiver with
  | .idle => s
  | .receiving b octets count mark =>
    let s := idleReceiver p s
    match frameFault p octets count mark with
    | .none => goodTelegram p b octets s
    | fault => badTelegram p b fault s
  | .discarding mark =>
    (idleReceiver p s).modPort p (fun q => if mark then { q with dropped := countUp q.dropped } else q)

/-- FRAME_END (R141): the frame-end timer runs while the receiver is not IDLE. -/
def execFrameEnd (p : Port) (s : State) : Result := arrival (fun s => !receiverIdle p s) (endFrame p) s

/-! ### Sending (R144, R145, R157) -/

/-- R157: the port chooses its next telegram, or enters IDLE. -/
def chooseNext (p : Port) (s : State) : State := s.modPort p (PortState.choose (portRatio p s))

/-- R144: the transmitter is IDLE and a queue holds a telegram. -/
def mayTransmit (p : Port) (s : State) : Bool :=
  let q := s.port p
  match q.transmitter with
  | .idle => !(q.urgent.isEmpty && q.routine.isEmpty)
  | _ => false

/-- TRANSMIT_START (R144). -/
def execTransmitStart (p : Port) (s : State) : Result := arrival (mayTransmit p) (chooseNext p) s

/-- The telegram a port is sending. -/
def sendingOf (p : Port) (s : State) : Option Telegram :=
  match (s.port p).transmitter with
  | .sending t => some t
  | _ => none

/-- R144, order 2: a copy's end is handed to the Order Unit. -/
def handCopyEnd (t : Tag) (s : State) : State :=
  match t with
  | .orderCopy station send => copyTransmitted station send s
  | _ => s

/-- R144, order 4. -/
def separate (p : Port) (s : State) : State :=
  s.modPort p (fun q => { q with transmitter := .separating, separation := .running (separationOf p s) })

/-- R173: the end of an accepted RESET's ANSWER begins the restart, after the actions of R144 (log 46). -/
def restartAfter (t : Tag) (s : State) : State :=
  match t with
  | .resetAnswer => beginPending s
  | _ => s

/-- R144: the transmission is complete. A restart that its end begins (R173) follows the actions of R144 (log 46). -/
def endTransmission (p : Port) (s : State) : State :=
  match sendingOf p s with
  | none => s
  | some t =>
    let s := s.modPort p (fun q => { q with sent := countUp q.sent })
    restartAfter t.tag (separate p (freeBuffer t.buffer (handCopyEnd t.tag s)))

/-- TRANSMISSION_COMPLETE (R144). -/
def execTransmissionComplete (p : Port) (s : State) : Result :=
  arrival (fun s => (sendingOf p s).isSome) (endTransmission p) s

/-- R145: the transmitter of a port is SEPARATING. -/
def isSeparating (p : Port) (s : State) : Bool :=
  match (s.port p).transmitter with
  | .separating => true
  | _ => false

/-- SEPARATION_EXPIRY (R145, R157). -/
def execSeparationExpiry (p : Port) (s : State) : Result := arrival (isSeparating p) (chooseNext p) s

/-! ### Holding (R160) -/

/-- REPEAT_TIMER_EXPIRY (R160): HOLD is formed again, and the holding test follows the takings. -/
def execRepeatTimerExpiry (s : State) : Result :=
  arrival (fun s => s.line.holding == .holding && s.line.repeatTimer.runs) (fun s => holdingTest (sendHold s)) s

end Sys2Proof.Machine
end

