-- ==== Sys2Proof/Machine/Reading.lean ====
section
/-! DEFINITION. READ: the contents of the eighteen selectors, their parts, and the meaning of READ (R170). The fields
stand in the order of R170 and of the rules it names, each in its form of R149 (log 9); the form of a quantity that
R149's table does not name is the model's choice (log 42). -/

namespace Sys2Proof.Machine

/-! ### Fields of READ contents -/

/-- R149: a count. -/
def countForm (n : Nat) : List Byte := twoOctets n

/-- The octet of a state for which the spec lists no code (log 32). -/
def unstatedState (f : Config.CodeField) (place : Nat) : List Byte := octetsOf 1 (Config.unstatedCode f place)

/-- The i-th time remaining that a content shows: a free value, at most the timer's duration; absent for a stopped timer
(log 8). Its form is two octets (log 42). -/
def remaining (s : State) (i : Nat) : Timer → List Byte
  | .stopped => twoOctetsOr none
  | .running d => twoOctets (min d (Config.timeRemaining (s.freeCount + i)))

/-- More free values than any content shows. -/
abbrev readFree : Nat := 8

/-! ### Contents -/

/-- Selector 1: the fields of R171 (the forms of the declared CV and of the times: log 42). -/
def settingsContent (x : Settings) : List Byte :=
  twoOctets x.declaredCv ++ small x.startHour ++ smallOr x.barometerPoint ++ smallOr x.calorimeterPoint
    ++ small x.poolMode.code ++ small x.holdMark ++ small x.goMark ++ small x.holdDuration
    ++ small x.ratioO.code ++ small x.ratioN.code ++ small x.ratioS.code ++ small x.guardN ++ small x.guardS
    ++ flagOctet x.enables.officeToN ++ flagOctet x.enables.officeToS ++ flagOctet x.enables.nToS
    ++ flagOctet x.enables.sToN ++ flagOctet x.enables.nToOffice ++ flagOctet x.enables.sToOffice
    ++ x.reportEnables.toList.flatMap flagOctet

/-- A point's quality; no code is listed for NONE. -/
def qualityOctet : Quality → List Byte
  | .none => unstatedState .quality 0
  | q => small q.code

/-- Selector 2: the fields of R2 (the form of the raw values: log 42). -/
def pointContent (n : Nat) (p : Point) : List Byte :=
  small n ++ small p.station ++ small p.channel ++ small p.kind.code ++ engineering (some p.lo)
    ++ engineering (some p.hi) ++ twoOctets p.rawMin ++ twoOctets p.rawMax ++ small p.forward.code
    ++ twoOctetsOr p.lastRaw ++ engineering p.value ++ qualityOctet p.quality ++ wideOr p.updated

/-- Selector 3: the 41 entries. -/
def vapourContent (s : State) : List Byte := s.vapour.toList.flatMap twoOctetsOr

/-- The running state of the Local Converter. -/
def localStateOctet : LocalState → List Byte
  | .disabled => unstatedState .localState 0
  | .settling => unstatedState .localState 1
  | .ready => unstatedState .localState 2

/-- The settle time remaining. In READY the settle timer is expired (R13), and what it shows is a free value (log 45). -/
def settleTimeOctets (s : State) (c : LocalConverter) : List Byte :=
  match c.running with
  | .ready => octetsOf 2 (Config.expiredTime s.freeCount)
  | _ => remaining s 0 c.settleTimer

/-- Selector 4 (the forms of the resolution and the times: log 42). -/
def localContent (s : State) : List Byte :=
  let c := s.localConverter
  flagOctet c.enabled ++ small c.resolution ++ small c.scanPeriod ++ localStateOctet c.running
    ++ settleTimeOctets s c ++ remaining s 1 c.scanTimer

/-- One entry of a lift table (the form of a section area: log 42). -/
def liftOctets (l : Option Lift) : List Byte :=
  twoOctetsOr (l.map (·.pickup)) ++ wideOr (l.map (·.area)) ++ twoOctetsOr (l.map (·.pressure))

/-- Selector 5: the fields of R20 and R22, then the lift table to the stage count, stage by stage (log 44). -/
def holderRecordContent (h : Nat) (r : Holder) : List Byte :=
  small h ++ small r.valveStation ++ small r.gaugePoint ++ smallOr r.pressurePoint ++ smallOr r.temperaturePoint
    ++ wide r.baseVolume ++ countForm r.stageCount ++ twoOctets r.topRise ++ twoOctets r.landedMark ++ twoOctets r.lowMark
    ++ twoOctets r.highMark ++ twoOctets r.topMark ++ twoOctets r.hysteresis ++ districtSetOctets r.permitted
    ++ flagOctet r.inReckoning
    ++ twoOctetsOr r.rise ++ smallOr r.stage ++ wideOr r.actualVolume ++ stockForm r.stock ++ twoOctetsOr r.pressure
    ++ small r.quality.code ++ small r.condition.code ++ flagOctet r.blind ++ flagOctet r.overTop
    ++ (r.lifts.toList.take r.stageCount).flatMap liftOctets

/-- A confirmed state; no code is listed for UNKNOWN. -/
def confirmedOctet : ValveState → List Byte
  | .closed => small 0
  | .opened => small 1
  | .moving => small 2
  | .fault => small 3
  | .unknown => unstatedState .confirmedValve 4

/-- An ordered state. -/
def orderedOctet : OrderedState → List Byte
  | .none => unstatedState .orderedValve 0
  | .opened => unstatedState .orderedValve 1
  | .close => unstatedState .orderedValve 2

/-- A holder mode. -/
def holderModeOctet : HolderMode → List Byte
  | .filling => unstatedState .holderMode 0
  | .emptying => unstatedState .holderMode 1
  | .floating => unstatedState .holderMode 2
  | .isolated => unstatedState .holderMode 3
  | .unknown => unstatedState .holderMode 4

/-- The valve of the entry in hand. -/
def Routing.valveInHand (q : Routing) : Option Nat := if q.inHand.isSome then q.sequence.head?.map (·.valve) else none

/-- Selector 6. The two states stand valve by valve (log 44). -/
def routingContent (h : Nat) (q : Routing) (s : State) : List Byte :=
  let ordered := fun v => match s.holder h with
    | none => OrderedState.none
    | some r => orderedState r.valveStation v s
  (q.confirmed.toList.zipIdx 0).flatMap (fun x => confirmedOctet x.1 ++ orderedOctet (ordered x.2))
    ++ holderModeOctet (holderMode q.confirmed) ++ districtSetOctets q.outletSet
    ++ countForm q.sequence.length ++ q.sequence.flatMap (fun c => small c.valve ++ flagOctet c.forced)
    ++ smallOr q.valveInHand

/-- A branch, or UNHEARD. -/
def branchOctet : Option Branch → List Byte
  | none => unstatedState .branch 0
  | some .n => unstatedState .branch 1
  | some .s => unstatedState .branch 2

/-- A liveness. -/
def livenessOctet : Liveness → List Byte
  | .unheard => unstatedState .liveness 0
  | .live => unstatedState .liveness 1
  | .silent => unstatedState .liveness 2

/-- A slot phase. -/
def phaseOctet : Slot → List Byte
  | .empty => unstatedState .slotPhase 0
  | .bufferWait _ => unstatedState .slotPhase 1
  | .onLine _ _ _ => unstatedState .slotPhase 2
  | .awaitingReply _ _ => unstatedState .slotPhase 3

/-- The reply timer of a slot. -/
def Slot.timer : Slot → Timer
  | .awaitingReply _ d => .running d
  | _ => .stopped

/-- An order record (R61): origin, station, body with its length, order code, operand, sends made. Sends made is written as
a number of one octet (log 42). -/
def orderOctets (o : Order) : List Byte :=
  small o.origin.code ++ small o.station ++ small o.body.length ++ o.body ++ smallOr o.code ++ twoOctetsOr o.operand
    ++ small o.sends

/-- The order record of a slot; every field absent in an EMPTY one. -/
def slotOctets : Option Order → List Byte
  | some o => orderOctets o
  | none => smallOr none ++ smallOr none ++ smallOr none ++ smallOr none ++ twoOctetsOr none ++ smallOr none

/-- Selector 7 (the forms of the times: log 42). -/
def stationContent (e : Station) (s : State) : List Byte :=
  small e.address ++ small e.kind.code ++ small e.linked ++ twoOctets e.waitingTime ++ twoOctets e.replyTime
    ++ branchOctet e.branch ++ livenessOctet e.liveness ++ wideOr e.lastHeard ++ countForm e.migrations
    ++ remaining s 0 e.waitingTimer
    ++ phaseOctet e.slot ++ slotOctets e.slot.order? ++ remaining s 1 e.slot.timer
    ++ countForm e.pendingList.length ++ e.pendingList.flatMap orderOctets

/-- Selector 8. -/
def strangersContent (s : State) : List Byte :=
  countForm s.strangers.length ++ (s.strangers.zipIdx 0).flatMap (fun x =>
    small x.1.address ++ branchOctet (some x.1.branch) ++ countForm x.1.telegrams ++ wideOr x.1.lastHeard
      ++ remaining s x.2 x.1.agingTimer)

/-- A profile: its count and breakpoints. -/
def profileOctets (bs : List Breakpoint) : List Byte :=
  countForm bs.length ++ bs.flatMap (fun b => twoOctets b.minute ++ twoOctets b.pressure)

/-- Selector 9: the fields of R79 and R80, both profiles, fog time remaining. The deadband is in Pa and the knee rate a
rate (R149); the forms of the load factor, the gain and the step period are log 42. -/
def districtContent (d : Nat) (r : District) (s : State) : List Byte :=
  small d ++ small r.governor ++ twoOctets r.minimum ++ twoOctets r.maximum ++ twoOctets r.drop
    ++ twoOctets r.stepPeriod ++ twoOctets r.slew ++ twoOctets r.deadband ++ smallOr r.outletMeter ++ wide r.kneeRate
    ++ twoOctets r.loadFactor ++ twoOctets r.raiseCap ++ smallOr r.tellTalePoint ++ twoOctets r.tellTaleMinimum
    ++ small r.gain ++ twoOctets r.decay ++ twoOctets r.correctionCap
    ++ small r.mode.code ++ flagOctet r.nextPending ++ countForm r.generation ++ twoOctetsOr r.active
    ++ twoOctetsOr r.lastSent ++ twoOctetsOr r.lastTarget ++ twoOctets r.correction ++ twoOctets r.fogRaise
    ++ twoOctets r.supplyLimit ++ flagOctet (!r.supplied) ++ flagOctet r.setFailed ++ twoOctetsOr r.reportedSetpoint
    ++ smallOr (r.releasedMark.map boolCode) ++ remaining s 0 r.stepTimer
    ++ profileOctets r.activeProfile ++ profileOctets r.nextProfile ++ remaining s 1 r.fogTimer

/-- A meter's kind, district and make position. -/
def targetOctets : MeterTarget → List Byte
  | .outlet d => small 0 ++ small d ++ smallOr none
  | .make m => small 1 ++ smallOr none ++ small m

/-- Selector 10: the fields of R105. -/
def meterContent (m : Nat) (r : Meter) : List Byte :=
  small m ++ targetOctets r.target ++ small r.countPoint ++ smallOr r.periodPoint ++ smallOr r.pressurePoint
    ++ twoOctets r.fixedPressure ++ smallOr r.temperaturePoint ++ wide r.pulseWeight ++ twoOctets r.deltaLimit
    ++ twoOctets r.lastCount ++ flagOctet r.lastCountValid ++ wide r.rate ++ stockForm (some r.unclockedVolume)
    ++ energyForm (some r.unclockedEnergy) ++ small r.unclockedFlags.unclockedValue

/-- The unclocked accumulators of a Meter Record; those of an empty record hold nothing (R100). -/
def unclockedOctets (r : Option Meter) : List Byte :=
  stockForm (some (r.elim 0 (·.unclockedVolume))) ++ energyForm (some (r.elim 0 (·.unclockedEnergy)))
    ++ small (r.elim 0 (·.unclockedFlags.unclockedValue))

/-- The clock state; no codes are listed for INVALID and VALID (log 32). -/
def clockStateOctet (valid : Bool) : List Byte := unstatedState .clockState (if valid then 1 else 0)

/-- Selector 11. The unclocked sums and flags stand meter by meter (log 44). -/
def clockContent (s : State) : List Byte :=
  clockStateOctet s.clock.valid ++ twoOctets s.clock.dayCount ++ wide s.clock.timeOfDay ++ flagOctet s.clock.setMark
    ++ s.meters.toList.flatMap unclockedOctets

/-- Selector 12: DAY-CLOSE content, all parts, then the hour-end stocks. -/
def dayReadContent (b : DayBook) : List Byte :=
  (dayContent b).flatten ++ b.hours.toList.flatMap (fun r => stockForm r.endStock)

/-- Selector 13: the six district records and the two make records of an hour, as HOUR-CLOSE content. -/
def hourReadContent (b : DayBook) (n : Nat) (r : Hour) : List Byte :=
  (r.districts.toList.zipIdx 1).flatMap (fun x => districtHourContent b.gasDay n x.2 r.state x.1)
    ++ makeStockContent b.gasDay n r

/-- A last fault. -/
def faultOctet : LineFault → List Byte
  | .none => unstatedState .lastFault 0
  | .badLength => unstatedState .lastFault 1
  | .badCheck => unstatedState .lastFault 2
  | .badKind => unstatedState .lastFault 3
  | .badAddress => unstatedState .lastFault 4

/-- A receiver state. -/
def receiverOctet : Receiver → List Byte
  | .idle => unstatedState .receiver 0
  | .receiving _ _ _ _ => unstatedState .receiver 1
  | .discarding _ => unstatedState .receiver 2

/-- A transmitter state. -/
def transmitterOctet : Transmitter → List Byte
  | .idle => unstatedState .transmitter 0
  | .sending _ => unstatedState .transmitter 1
  | .separating => unstatedState .transmitter 2

/-- Selector 14. The lengths of the queues are numbers (log 42). -/
def portContent (p : Port) (s : State) : List Byte :=
  let q := s.port p
  wide q.good ++ wide q.bad ++ wide q.dropped ++ wide q.sent ++ faultOctet q.lastFault ++ receiverOctet q.receiver
    ++ transmitterOctet q.transmitter ++ countForm (s.line.charge p) ++ small q.urgent.length ++ small q.routine.length
    ++ countForm q.runCount

/-- A holding state. -/
def holdingOctet : Holding → List Byte
  | .notHolding => unstatedState .holding 0
  | .holding => unstatedState .holding 1

/-- Selector 15. The free buffers and the length of the claim list are numbers (log 42). -/
def poolContent (s : State) : List Byte :=
  small s.line.freeGeneral ++ small s.line.freeReserve ++ small s.claims.length ++ holdingOctet s.line.holding
    ++ remaining s 0 s.line.repeatTimer

/-- Selector 16: the records of R162, each as ALARM content (R168), which gives the occurrence count one octet (log 42). -/
def alarmsContent (s : State) : List Byte :=
  countForm s.alarms.length ++ flagOctet s.alarmOverflow
    ++ s.alarms.flatMap (fun r => alarmContent r r.state.code ++ flagOctet r.reportOwed)

/-- Selector 17. -/
def backlogContent (s : State) : List Byte :=
  countForm s.backlog.length ++ flagOctet s.backlogOverflow
    ++ s.backlog.flatMap (fun e => small (reportContent s e.form).kind)

/-- Selector 18. -/
def unitContent (s : State) : List Byte := small s.lastCause.code

/-- The port of an item. -/
def portOf : Nat → Port
  | 0 => .o
  | 1 => .n
  | _ => .s

/-- Selector 13: the book and the hour number of an item. -/
def hourItem (item : Nat) (s : State) : Option (DayBook × Nat) :=
  if item < 64 then s.currentBook.map (·, item) else s.previousBook.map (·, item - 64)

/-- R170: the content of a selector and item; none where the record or entry named is empty. -/
def readContent (selector item : Nat) (s : State) : Option (List Byte) :=
  match selector with
  | 1 => some (settingsContent s.settings)
  | 2 => (s.point item).map (pointContent item)
  | 3 => some (vapourContent s)
  | 4 => some (localContent s)
  | 5 => (s.holder item).map (holderRecordContent item)
  | 6 => (s.routing item).map (fun q => routingContent item q s)
  | 7 => (s.station item).map (fun e => stationContent e s)
  | 8 => some (strangersContent s)
  | 9 => (s.district item).map (fun r => districtContent item r s)
  | 10 => (s.meter item).map (meterContent item)
  | 11 => some (clockContent s)
  | 12 => (if item = 0 then s.currentBook else s.previousBook).map dayReadContent
  | 13 => (hourItem item s).bind (fun x => (x.1.hours[x.2]?).map (hourReadContent x.1 x.2))
  | 14 => some (portContent (portOf item) s)
  | 15 => some (poolContent s)
  | 16 => some (alarmsContent s)
  | 17 => some (backlogContent s)
  | 18 => some (unitContent s)
  | _ => none

/-! ### Parts and READ -/

/-- R170: the part count of a content. -/
def partCount (content : List Byte) : Nat := max 1 ((content.length + Config.readPart - 1) / Config.readPart)

/-- R170: a part's octets. -/
def partOctets (content : List Byte) (part : Nat) : List Byte :=
  (content.drop ((part - 1) * Config.readPart)).take Config.readPart

/-- R170: the items a selector gives. -/
def itemInRange (selector item : Nat) : Bool :=
  match selector with
  | 2 => decide (item ≤ 191)
  | 5 => !outside 1 8 item
  | 6 => !outside 1 8 item
  | 7 => !outside 1 239 item
  | 9 => !outside 1 6 item
  | 10 => !outside 1 8 item
  | 12 => decide (item ≤ 1)
  | 13 => decide (item ≤ 23) || !outside 64 87 item
  | 14 => decide (item ≤ 2)
  | _ => item == 0

/-- R166, R170: an ACCEPTED READ of selector 17 clears the backlog overflow flag. -/
def afterRead (selector : Nat) (s : State) : State :=
  { s with
    backlogOverflow := s.backlogOverflow && selector != 17
    freeCount := s.freeCount + readFree }

/-- R170. -/
def readRequest (f : List Byte) (s : State) : Performed :=
  let selector := octetAt f 0
  let item := octetAt f 1
  let part := octetAt f 2
  match firstFailure
    [ (f.length != 3 || outside 1 18 selector, .badFormat),
      (!itemInRange selector item || part == 0, .outOfRange) ] with
  | some r => ⟨r, [], s⟩
  | none =>
    match readContent selector item s with
    | none => ⟨.unknownItem, [], s⟩
    | some content =>
      if partCount content < part then ⟨.unknownItem, [], s⟩
      else
        ⟨.accepted, small part ++ small (partCount content) ++ partOctets content part, afterRead selector s⟩

/-- READ (R170). -/
def execRead (s : State) : Result := request 19 readRequest s

end Sys2Proof.Machine
end

