-- ==== Sys2Proof/Machine/StationRequests.lean ====
section
/-! DEFINITION. LOAD_STATION and DROP_STATION (R76, R77, R130 to R132). -/

namespace Sys2Proof.Machine

/-- The configured fields of a LOAD-STATION. -/
structure StationFields where
  address : Nat
  kind : StationKind
  linked : Nat
  waitingTime : Nat
  replyTime : Nat
deriving DecidableEq, Repr

/-- A waiting timer as started: stopped for a waiting time of 0. -/
def waitingTimerFor (waitingTime : Nat) : Timer := if waitingTime = 0 then .stopped else .running waitingTime

/-- R131: the waiting timer of a rewritten entry. -/
def rewrittenTimer (e : Station) (waitingTime : Nat) : Timer :=
  if e.liveness = .silent ∨ waitingTime = e.waitingTime then e.waitingTimer else waitingTimerFor waitingTime

/-- R131: an entry rewritten keeps its learned fields, slot and list. -/
def rewriteStation (x : StationFields) (e : Station) : Station :=
  { e with
    kind := x.kind, linked := x.linked, replyTime := x.replyTime, waitingTime := x.waitingTime
    waitingTimer := rewrittenTimer e x.waitingTime }

/-- R130: a new entry, with what a stranger entry carries over. -/
def newStation (x : StationFields) (stranger : Option Stranger) : Station :=
  { address := x.address, kind := x.kind, linked := x.linked, waitingTime := x.waitingTime, replyTime := x.replyTime
    branch := stranger.map (·.branch), liveness := .unheard, lastHeard := stranger.bind (·.lastHeard)
    migrations := 0, waitingTimer := waitingTimerFor x.waitingTime, slot := .empty, pendingList := [] }

/-- The directory kept in ascending address. -/
def insertStation (e : Station) : List Station → List Station
  | [] => [e]
  | q :: rest => if e.address < q.address then e :: q :: rest else q :: insertStation e rest

/-- R130, R131, ACCEPTED. -/
def storeStation (x : StationFields) (s : State) : State :=
  match s.station x.address with
  | some _ => s.modStation x.address (rewriteStation x)
  | none =>
    { s with
      strangers := s.strangers.filter (fun e => e.address != x.address)
      directory := insertStation (newStation x (s.stranger x.address)) s.directory }

/-- R130: the largest linked number of a kind. -/
def largestLink : StationKind → Nat
  | .holder => 8
  | .governor => 6
  | .meter => 0
  | .telltale => 0
  | .calorimeter => 0
  | .general => 0

/-- R130. The kind is read before it is used; a kind not defined is BAD-FORMAT. -/
def loadStation (f : List Byte) (s : State) : Performed :=
  let kind := (stationKindOf (octetAt f 1)).getD .general
  let x : StationFields := ⟨octetAt f 0, kind, octetAt f 2, field f 3 2, field f 5 2⟩
  judge
    [ (f.length != 7 || (stationKindOf (octetAt f 1)).isNone, .badFormat),
      (outside 1 239 x.address || decide (largestLink kind < x.linked) || decide (600 < x.waitingTime)
        || outside 500 10000 x.replyTime, .outOfRange),
      ((s.station x.address).isNone && decide (Config.directoryEntries ≤ s.directory.length), .full) ]
    (storeStation x) s

/-- LOAD_STATION (R130). -/
def execLoadStation (s : State) : Result := request 2 loadStation s

/-- R132, ACCEPTED: the slot and list are cleared, the closure sequence ends, the waiting timer stops and STATION-SILENT
is cleared, and the entry is removed. -/
def removeStation (a : Nat) (s : State) : State :=
  let s := endSequence a (clearOrders a s)
  let s := s.modStation a (fun e => { e with waitingTimer := .stopped })
  let s := clearAlarm (alarmKey .stationSilent a) s
  { s with directory := s.directory.filter (fun e => e.address != a) }

/-- R132. -/
def dropStation (f : List Byte) (s : State) : Performed :=
  let a := octetAt f 0
  judge
    [ (f.length != 1, .badFormat),
      (outside 1 239 a, .outOfRange),
      ((s.station a).isNone, .unknownItem) ]
    (removeStation a) s

/-- DROP_STATION (R132). -/
def execDropStation (s : State) : Result := request 3 dropStation s

end Sys2Proof.Machine
end

