-- ==== Sys2Proof/Machine/Dispatch.lean ====
section
/-! DEFINITION. The meaning of every command, one arm per row of spec/opcode_table.json. -/

namespace Sys2Proof.Machine

/-- A command's effect on everything but the queue. -/
def exec (i : Instr) (s : State) : Host.Outcome State Fault Refusal :=
  match i with
  | .powerOn => Sys2Proof.Machine.execPowerOn s
  | .restartComplete => Sys2Proof.Machine.execRestartComplete s
  | .receptionStart port octet faulty => Sys2Proof.Machine.execReceptionStart port octet faulty s
  | .frameEnd port => Sys2Proof.Machine.execFrameEnd port s
  | .sample port => Sys2Proof.Machine.execSample port s
  | .reply port => Sys2Proof.Machine.execReply port s
  | .officeCommand => Sys2Proof.Machine.execOfficeCommand s
  | .orderSend station => Sys2Proof.Machine.execOrderSend station s
  | .replyTimerExpiry station => Sys2Proof.Machine.execReplyTimerExpiry station s
  | .stepTimerExpiry district => Sys2Proof.Machine.execStepTimerExpiry district s
  | .fogTimerExpiry district => Sys2Proof.Machine.execFogTimerExpiry district s
  | .clockSecond => Sys2Proof.Machine.execClockSecond s
  | .wholeHour => Sys2Proof.Machine.execWholeHour s
  | .waitingTimerExpiry station => Sys2Proof.Machine.execWaitingTimerExpiry station s
  | .agingTimerExpiry station => Sys2Proof.Machine.execAgingTimerExpiry station s
  | .settleTimerExpiry => Sys2Proof.Machine.execSettleTimerExpiry s
  | .scanTimerExpiry => Sys2Proof.Machine.execScanTimerExpiry s
  | .scanComplete code0 code1 code2 code3 => Sys2Proof.Machine.execScanComplete code0 code1 code2 code3 s
  | .transmitStart port => Sys2Proof.Machine.execTransmitStart port s
  | .transmissionComplete port => Sys2Proof.Machine.execTransmissionComplete port s
  | .separationExpiry port => Sys2Proof.Machine.execSeparationExpiry port s
  | .repeatTimerExpiry => Sys2Proof.Machine.execRepeatTimerExpiry s
  | .reportSend => Sys2Proof.Machine.execReportSend s
  | .loadSettings => Sys2Proof.Machine.execLoadSettings s
  | .loadStation => Sys2Proof.Machine.execLoadStation s
  | .dropStation => Sys2Proof.Machine.execDropStation s
  | .loadPoint => Sys2Proof.Machine.execLoadPoint s
  | .dropPoint => Sys2Proof.Machine.execDropPoint s
  | .loadVapour => Sys2Proof.Machine.execLoadVapour s
  | .loadLocal => Sys2Proof.Machine.execLoadLocal s
  | .loadHolder => Sys2Proof.Machine.execLoadHolder s
  | .loadLift => Sys2Proof.Machine.execLoadLift s
  | .holderService => Sys2Proof.Machine.execHolderService s
  | .loadDistrict => Sys2Proof.Machine.execLoadDistrict s
  | .loadProfile => Sys2Proof.Machine.execLoadProfile s
  | .stepNow => Sys2Proof.Machine.execStepNow s
  | .districtMode => Sys2Proof.Machine.execDistrictMode s
  | .fog => Sys2Proof.Machine.execFog s
  | .loadMeter => Sys2Proof.Machine.execLoadMeter s
  | .setClock => Sys2Proof.Machine.execSetClock s
  | .collectDay => Sys2Proof.Machine.execCollectDay s
  | .read => Sys2Proof.Machine.execRead s
  | .ackAlarm => Sys2Proof.Machine.execAckAlarm s
  | .reset => Sys2Proof.Machine.execReset s
  | .resetTimerExpiry => Sys2Proof.Machine.execResetTimerExpiry s
  | .octetArrives port octet faulty => Sys2Proof.Machine.execOctetArrives port octet faulty s

end Sys2Proof.Machine
end

