-- ==== Sys2Proof/Safety.lean ====
section
/-! DEFINITION. What must hold of every state (the invariants of the statements), and the words the statements about
requests are written in. -/

namespace Sys2Proof.Machine

/-! ### Buffers (R150, R152) -/

/-- The buffers a port holds: the frame being received, its two queues, the telegram being sent. -/
def PortState.buffers (q : PortState) : List Buffer :=
  (match q.receiver with
    | .receiving b _ _ _ => [b]
    | _ => [])
  ++ (q.urgent ++ q.routine).map (·.buffer)
  ++ match q.transmitter with
    | .sending t => [t.buffer]
    | _ => []

/-- Every buffer that is not free. -/
def State.buffersInUse (s : State) : List Buffer :=
  s.line.received.map (·.buffer) ++ s.line.portO.buffers ++ s.line.portN.buffers ++ s.line.portS.buffers

/-- R150: the buffers of each class number 88 and 8, free or in use. R152: a port's charge count is the number of buffers
in use that are charged to it. -/
structure BuffersConserved (s : State) : Prop where
  general : s.line.freeGeneral + s.buffersInUse.countP (fun b => b.cls == .general) = 88
  reserve : s.line.freeReserve + s.buffersInUse.countP (fun b => b.cls == .reserve) = 8
  charges : ∀ p, s.line.charge p = s.buffersInUse.countP (fun b => b.charge == some p)

/-! ### Alarm List and Report Backlog (R162, R166) -/

/-- The record an entry refers to. -/
def Entry.record? (e : Entry) : Option RecordRef :=
  match e.form with
  | .reference ref => some ref
  | .full _ => none

/-- R162: at most 32 records, at most one for each kind and subject, each with a count of 1 to 255. R166: at most 64
entries, no record referenced by two; outside a restart a record's report-owed flag is set exactly while an entry refers
to it. R168: no report has more than three parts. -/
structure RecordsConsistent (s : State) : Prop where
  alarmsFit : s.alarms.length ≤ 32
  alarmsDistinct : (s.alarms.map (·.key)).Nodup
  counts : ∀ r ∈ s.alarms, 1 ≤ r.count ∧ r.count ≤ 255
  backlogFits : s.backlog.length ≤ 64
  oneReference : (s.backlog.filterMap Entry.record?).Nodup
  owed : isRestarting s = false →
    ∀ key, referenced (.alarm key) s = s.alarms.any (fun r => r.key == key && r.reportOwed)
  partsFit : ∀ e ∈ s.backlog, ∀ held, e.held = some held → held.remaining.length ≤ 3

/-! ### Station Directory and stranger list (R61, R120, R127) -/

/-- R120: at most 48 entries; an address appears at most once across the directory and the stranger list. R127: at most 8
strangers. R61: at most four pending orders. -/
structure DirectoryConsistent (s : State) : Prop where
  fits : s.directory.length ≤ 48
  strangersFit : s.strangers.length ≤ 8
  distinct : (s.directory.map (·.address) ++ s.strangers.map (·.address)).Nodup
  listsFit : ∀ e ∈ s.directory, e.pendingList.length ≤ 4

/-! ### Valve orders (R50) -/

/-- R50: no OPEN of the inlet stands while the holder is OUT, blind or in TOP. -/
def Holder.forbidsInlet (r : Holder) : Bool := !r.inReckoning || r.blind || r.condition == .top

/-- R50: no OPEN of an outlet stands while the holder is OUT, blind, LOW or LANDED (blind: log 33). -/
def Holder.forbidsOutlets (r : Holder) : Bool :=
  !r.inReckoning || r.blind || r.condition == .low || r.condition == .landed

/-- R41: no two loaded holders share a valve station. R50: no order in a valve station's slot or list opens a valve that
the holder's state forbids. R64: no automatic order is an OPEN. -/
structure OpensAllowed (s : State) : Prop where
  automaticNeverOpens : ∀ e ∈ s.directory, ∀ o ∈ e.orders, o.fromOffice = false → o.code ≠ some codeOpen
  stationsDistinct : ∀ h k r q, s.holder h = some r → s.holder k = some q → r.valveStation = q.valveStation → h = k
  noForbiddenOpen : ∀ h r e o v, s.holder h = some r → s.station r.valveStation = some e → o ∈ e.orders →
    o.valveOrder codeOpen = some v → (if v = 0 then r.forbidsInlet else r.forbidsOutlets) = false

/-! ### Setpoints (R92) -/

/-- R92: the active setpoint of a district in AUTO never exceeds its maximum or its latest supply limit. -/
def ActiveWithinLimits (s : State) : Prop :=
  ∀ d r v, s.district d = some r → r.mode = .auto → r.active = some v → v ≤ r.maximum ∧ v ≤ r.supplyLimit

/-! ### Day books (R113, R116) -/

/-- R113: a VALID clock has exactly one open hour in the current book; the previous book holds none. With the clock
INVALID there is no book (R100, R102). R116: the opening stock of the current book is the closing stock of the previous
one. -/
structure HoursConsistent (s : State) : Prop where
  oneOpen : s.clock.valid = true →
    ∃ b, s.currentBook = some b ∧ b.hours.toList.countP (fun r => r.state == .opened) = 1
  noBook : s.clock.valid = false → s.currentBook = none ∧ s.previousBook = none
  previousClosed : ∀ b, s.previousBook = some b → ∀ r ∈ b.hours.toList, r.state ≠ .opened
  stocksMeet : ∀ b p, s.currentBook = some b → s.previousBook = some p → p.closing = some b.opening

/-! ### Requests (R169) -/

/-- In READY, port O's oldest good telegram r is a MANAGE to 240 whose body is the request code and then the fields f; u is
the state with r taken out of reception. -/
structure Requested (code : Nat) (f : List Byte) (r : Received) (s u : State) : Prop where
  ready : s.unit = .ready
  taken : takeReceived .o s = some (r, u)
  kind : kindOf r.octets = 4
  destination : destinationOf r.octets = 240
  body : bodyOf r.octets = octet code :: f

/-- R169: the ANSWER is written in the request's buffer and joins the office ROUTINE queue of v; waiting MANAGE telegrams
that no request step takes follow (log 3). -/
def answered (r : Received) (code : Nat) (result : ResultCode) (data : List Byte) (v : State) : State :=
  drain (queueAnswer r.buffer (answerTag code result) (octet code) result data v)

end Sys2Proof.Machine
end

