-- ==== Sys2Proof/Certificates/Slice0/Obligations.lean ====
section
/-! DEFINITION. The statements for the provers. Free values and values of the model's own (log 8, log 17) are held
equal where a statement speaks of whole states; none rests on what they are. -/

namespace Sys2Proof.Claims
end Sys2Proof.Claims

open Sys2Proof Sys2Proof.Machine Sys2Proof.Claims

/-! ### Words: an order's slot, owed reports, timers -/

/-- R66: with the slot EMPTY, the head of a station's pending list is taken into it, where it waits for ORDER_SEND
(log 4). -/
def Sys2Proof.Claims.headTaken (a : Nat) (s : State) : State :=
  s.modStation a (fun e =>
    match e.slot, e.pendingList with
    | .empty, o :: rest => { e with slot := .bufferWait o, pendingList := rest }
    | _, _ => e)

/-- R70, R153: a slot emptied, the claim of its send withdrawn. -/
def Sys2Proof.Claims.slotEmptied (a : Nat) (s : State) : State :=
  { s.modStation a (fun e => { e with slot := .empty }) with claims := s.claims.filter (· != .send a) }

/-- SUPERSEDED owed for an office order, in full (R52, R53, R64). -/
def Sys2Proof.Claims.supersededOwed (cause : SupersessionCause) (o : Order) (s : State) : State :=
  oweFull (.superseded o.station o.code o.operand cause) s

/-- An alarm whose kind has no valve raised, or cleared (R163, R164). -/
def Sys2Proof.Claims.raised (k : AlarmKind) (subject : Nat) (s : State) : State := raiseAlarm ⟨k, subject, none⟩ s
def Sys2Proof.Claims.cleared (k : AlarmKind) (subject : Nat) (s : State) : State := clearAlarm ⟨k, subject, none⟩ s

/-! ### Words: the open hour (R111, R112, R114) -/

/-- The records of the open hour changed; without an open hour there is no effect. -/
def Sys2Proof.Claims.inOpenHour (f : Hour → Hour) (s : State) : State :=
  { s with currentBook := s.currentBook.map (fun b =>
      { b with hours := b.hours.map (fun r => if r.state = .opened then f r else r) }) }

/-- One district's record of an hour changed. -/
def Sys2Proof.Claims.inDistrict (d : Nat) (f : DistrictHour → DistrictHour) (r : Hour) : Hour :=
  { r with districts := Vector.ofFn (fun i : Fin 6 => if i.val + 1 = d then f r.districts[i] else r.districts[i]) }

/-- One make position's record of an hour changed. -/
def Sys2Proof.Claims.inMake (m : Nat) (f : MakeHour → MakeHour) (r : Hour) : Hour :=
  { r with makes := Vector.ofFn (fun i : Fin 2 => if i.val + 1 = m then f r.makes[i] else r.makes[i]) }

/-- The flags of every record of an hour changed. -/
def Sys2Proof.Claims.inFlags (f : HourFlags → HourFlags) (r : Hour) : Hour :=
  { r with
    districts := r.districts.map (fun q => { q with flags := f q.flags })
    makes := r.makes.map (fun q => { q with flags := f q.flags }) }

/-- R114: the minimum and maximum active setpoint widened to include a value. -/
def Sys2Proof.Claims.widened (v : Nat) (q : DistrictHour) : DistrictHour :=
  { q with
    minActive := some (q.minActive.elim v (fun w => min w v)), maxActive := some (q.maxActive.elim v (fun w => max w v)) }

/-- R114: STOCK-PARTIAL on every record of the open hour. -/
def Sys2Proof.Claims.partialFlagged (s : State) : State :=
  inOpenHour (inFlags (fun q => { q with stockPartial := true })) s

/-! ### Words: supply, clamp and send decision (R92 to R97) -/

/-- R92, R114: the active setpoint written; a change widens the open hour's record. -/
def Sys2Proof.Claims.activeWritten (d v : Nat) (s : State) : State :=
  match s.district d with
  | none => s
  | some r =>
    if r.active = some v then s else inOpenHour (inDistrict d (widened v)) (s.putDistrict d { r with active := some v })

/-- R93: whether the active setpoint v is to be sent. -/
def Sys2Proof.Claims.sendCalledFor (r : District) (v : Nat) : Bool :=
  r.supplied && r.lastSent.elim true (fun w => r.setFailed || decide (max 1 r.deadband ≤ max v w - min v w))

/-- R64: from a list of four the oldest office order goes, with SUPERSEDED, or without one the oldest automatic order. -/
def Sys2Proof.Claims.roomMade (list : List Order) (s : State) : List Order × State :=
  if list.length < 4 then (list, s)
  else
    match list.find? (fun o => o.origin == .office) with
    | some o => (list.erase o, supersededOwed .governor o s)
    | none => (list.drop 1, s)

/-- R64: an automatic SET placed: every SET waiting is removed, head to tail, with SUPERSEDED for an office one; the new SET
takes the place of the one nearest the head, or else the tail; a slot that is EMPTY takes the head. SET is told by the order
code (log 20). -/
def Sys2Proof.Claims.setPlaced (a d operand : Nat) (s : State) : State :=
  match s.station a with
  | none => s
  | some e =>
    let o : Order := ⟨.scheduler d, a, octet 3 :: octetsOf 2 operand, 0, s.serial⟩
    let isSet := fun q : Order => q.code == some 3
    let t := (e.pendingList.filter isSet).foldl (fun t q => if q.origin = .office then supersededOwed .governor q t else t)
      { s with serial := s.serial + 1 }
    let ahead := e.pendingList.takeWhile (fun q => !isSet q)
    let x :=
      if e.pendingList.any isSet then
        (ahead ++ o :: (e.pendingList.drop ahead.length).filter (fun q => !isSet q), t)
      else
        let m := roomMade e.pendingList t
        (m.1 ++ [o], m.2)
    headTaken a (x.2.modStation a (fun y => { y with pendingList := x.1 }))

/-- R64, R81: an automatic RELEASE placed: every automatic SET and RELEASE waiting is removed, and the new order takes the
tail; a slot that is EMPTY takes the head. SET and RELEASE are told by the order code (log 20). -/
def Sys2Proof.Claims.releasePlaced (a d : Nat) (s : State) : State :=
  match s.station a with
  | none => s
  | some e =>
    let o : Order := ⟨.scheduler d, a, octet 4 :: octetsOf 2 0, 0, s.serial⟩
    let kept := e.pendingList.filter (fun q => q.origin == .office || !(q.code == some 3 || q.code == some 4))
    let m := roomMade kept { s with serial := s.serial + 1 }
    headTaken a (m.2.modStation a (fun y => { y with pendingList := m.1 ++ [o] }))

/-- R65, R81: a district's RELEASE for its governor station; for one that is not configured it fails at once. -/
def Sys2Proof.Claims.releaseIssued (d : Nat) (s : State) : State :=
  match s.district d with
  | none => s
  | some r => if s.station r.governor = none then raised .orderFailed d s else releasePlaced r.governor d s

/-- R81: the automatic SETs waiting in a station's list are removed without report (log 20). -/
def Sys2Proof.Claims.automaticSetsRemoved (a : Nat) (s : State) : State :=
  match s.station a with
  | none => s
  | some e => s.modStation a (fun y =>
      { y with pendingList := e.pendingList.filter (fun q => q.origin == .office || q.code != some 3) })

/-- R81: the office SETs and RELEASEs waiting in a station's list are removed, head to tail, with SUPERSEDED owed for each,
cause GOVERNOR (log 20). -/
def Sys2Proof.Claims.officeOrdersSuperseded (a : Nat) (s : State) : State :=
  match s.station a with
  | none => s
  | some e =>
    let named := fun q : Order => q.origin == .office && (q.code == some 3 || q.code == some 4)
    (e.pendingList.filter named).foldl (fun t q => supersededOwed .governor q t)
      (s.modStation a (fun y => { y with pendingList := e.pendingList.filter (fun q => !named q) }))

/-- R63: an office order that has passed its checks joins the tail of its station's list with no send made, and a slot that
is EMPTY takes the head. -/
def Sys2Proof.Claims.officePlaced (a : Nat) (body : List Byte) (s : State) : State :=
  headTaken a ({ s with serial := s.serial + 1 }.modStation a (fun e =>
    { e with pendingList := e.pendingList ++ [(⟨.office, a, body, 0, s.serial⟩ : Order)] }))

/-- R76: what an order does that ends with its station. An automatic CLOSE is left to its closure sequence (R58); SET is
told by the order code (log 20). -/
def Sys2Proof.Claims.orderDropped (s : State) (o : Order) : State :=
  match o.origin with
  | .office => supersededOwed .dropped o s
  | .interlock => s
  | .scheduler d =>
    match s.district d with
    | none => s
    | some r => if o.code = some 3 ∧ r.governor = o.station then s.putDistrict d { r with setFailed := true } else s

/-- R76: a station's slot and list cleared, the slot's order ended first, then the list from head to tail. -/
def Sys2Proof.Claims.ordersDropped (a : Nat) (s : State) : State :=
  match s.station a with
  | none => s
  | some e => (e.slot.order?.toList ++ e.pendingList).foldl orderDropped
      ((slotEmptied a s).modStation a (fun y => { y with pendingList := [] }))

/-- R93: the send decision. R65: a SET for an unconfigured station fails at once; any other is placed as R64 states. -/
def Sys2Proof.Claims.sendDecided (d : Nat) (s : State) : State :=
  match s.district d with
  | none => s
  | some r =>
    match r.active with
    | none => s
    | some v =>
      if sendCalledFor r v = false then s
      else if s.station r.governor = none then (raised .orderFailed d s).putDistrict d { r with setFailed := true }
      else setPlaced r.governor d v s

/-- R94: the greatest contribution of the holders that supply a district, and whether one does. -/
def Sys2Proof.Claims.supplyFrom (d drop : Nat) (s : State) : Nat × Bool :=
  let supplying := (List.range 8).filterMap (fun i => (s.holder (i + 1)).bind (fun r =>
    if r.inReckoning = true ∧ r.condition ≠ .landed ∧ ((s.outletSets[i]?).any (·.has d)) = true then r.pressure else none))
  ((supplying.map (· - drop)).foldl max 0, !supplying.isEmpty)

/-- R95 to R97: one district's supply limit and supply state formed afresh; a changed supply state first raises or clears
DISTRICT-UNSUPPLIED and owes SETPOINT, then an active setpoint of AUTO above the new limit drops to it (that order is
log 28). -/
def Sys2Proof.Claims.districtRecomputed (s : State) (d : Nat) : State :=
  match s.district d with
  | none => s
  | some r =>
    let supply := supplyFrom d r.drop s
    if supply.1 = r.supplyLimit ∧ supply.2 = r.supplied then s
    else
      let t := s.putDistrict d { r with supplyLimit := supply.1, supplied := supply.2 }
      let t :=
        if supply.2 = r.supplied then t
        else oweReference (.district d) (if supply.2 then cleared .districtUnsupplied d t else raised .districtUnsupplied d t)
      if r.mode = .auto ∧ r.active.any (fun v => decide (supply.1 < v)) then
        let t := activeWritten d supply.1 t
        sendDecided d (if supply.1 < r.minimum ∧ supply.2 = true then raised .districtShort d t else t)
      else t

/-- R95: every loaded district, in ascending number. -/
def Sys2Proof.Claims.supplyRecomputed (s : State) : State := [1, 2, 3, 4, 5, 6].foldl districtRecomputed s

/-! ### Words: confirmed states and closure sequences (R45, R46, R51 to R57) -/

/-- R45: confirmed states written with the outlet set they form; a set that differs is handed to the Pressure Scheduler. -/
def Sys2Proof.Claims.confirmedWritten (h : Nat) (states : Vector ValveState 7) (s : State) : State :=
  match s.routing h with
  | none => s
  | some q =>
    let set : DistrictSet := Vector.ofFn (fun i : Fin 6 => states[i.val + 1] == .opened)
    let t := s.putRouting h { q with confirmed := states, outletSet := set }
    if set = q.outletSet then t
    else supplyRecomputed { t with outletSets := t.outletSets.setIfInBounds (h - 1) set }

/-- R46: the state an octet gives. -/
def Sys2Proof.Claims.valveStateIn (o : Nat) : ValveState :=
  if o = 0 then .closed else if o = 1 then .opened else if o = 2 then .moving else if o = 3 then .fault else .unknown

/-- R46: what a REPLY of a holder's valve station does to its Routing Record. CLOSE-FAILED is cleared for each valve that
reads CLOSED, in ascending valve number (log 34). -/
def Sys2Proof.Claims.valveStatesTaken (h : Nat) (body : List Byte) (s : State) : State :=
  if body.length = 11 ∧ s.routing h ≠ none then
    let states := Vector.ofFn (fun i : Fin 7 => valveStateIn (octetAt body (4 + i.val)))
    [0, 1, 2, 3, 4, 5, 6].foldl (fun t v =>
      if states[v]? = some .closed then clearAlarm ⟨.closeFailed, h, some v⟩ t else t) (confirmedWritten h states s)
  else s

/-- R57: a close judged, its entry already removed: a failed close makes the valve UNKNOWN and raises CLOSE-FAILED. -/
def Sys2Proof.Claims.closeJudged (h v : Nat) (success : Bool) (s : State) : State :=
  match s.routing h with
  | none => s
  | some q =>
    if success = true then s
    else raiseAlarm ⟨.closeFailed, h, some v⟩ (confirmedWritten h (q.confirmed.setIfInBounds v .unknown) s)

/-- R56, R64: an automatic CLOSE placed at the head of a station's pending list; from a full list the order at the tail is
removed first, with SUPERSEDED for an office order. Its cause is that with which the closure's entry was added (log 15). -/
def Sys2Proof.Claims.closePlaced (a valve : Nat) (cause : SupersessionCause) (s : State) : State :=
  match s.station a with
  | none => s
  | some e =>
    let o : Order := ⟨.interlock, a, octet 2 :: octetsOf 2 valve, 0, s.serial⟩
    let t := { s with serial := s.serial + 1 }
    if e.pendingList.length < 4 then t.modStation a (fun x => { x with pendingList := o :: e.pendingList })
    else
      let t := match e.pendingList.getLast? with
        | some p => if p.origin = Origin.office then supersededOwed cause p t else t
        | none => t
      t.modStation a (fun x => { x with pendingList := o :: e.pendingList.dropLast })

/-- R56: entries handed over from the front: an unforced one whose valve reads CLOSED is removed, one for an unconfigured
station ends at once (R57), the first other is placed as an automatic CLOSE, with the cause its entry keeps (log 15), and is
in hand. -/
def Sys2Proof.Claims.frontHanded (h a : Nat) : List Closure → State → State
  | [], s =>
    match s.routing h with
    | none => s
    | some q => s.putRouting h { q with sequence := [], inHand := none }
  | c :: rest, s =>
    match s.routing h with
    | none => s
    | some q =>
      let closed := q.confirmed[c.valve]? == some .closed
      if c.forced = false ∧ closed = true then frontHanded h a rest s
      else if s.station a = none then
        frontHanded h a rest (closeJudged h c.valve closed (s.putRouting h { q with sequence := rest, inHand := none }))
      else closePlaced a c.valve c.cause (s.putRouting h { q with sequence := c :: rest, inHand := some s.serial })

/-- R56: the front entry is handed over, unless one is in hand. -/
def Sys2Proof.Claims.sequenceHanded (h : Nat) (s : State) : State :=
  match s.holder h, s.routing h with
  | some r, some q => if q.inHand = none then frontHanded h r.valveStation q.sequence s else s
  | _, _ => s

/-- R57: the ending of an automatic CLOSE of a holder. The ending of the entry in hand removes it, is judged, and hands the
next entry over; the ending of any other CLOSE does nothing (log 27). -/
def Sys2Proof.Claims.closeEnding (h : Nat) (o : Order) (done : Bool) (s : State) : State :=
  match s.routing h with
  | none => s
  | some q =>
    match q.sequence with
    | [] => s
    | c :: rest =>
      if q.inHand = some o.entered then
        sequenceHanded h (closeJudged h c.valve (done || q.confirmed[c.valve]? == some .closed)
          (s.putRouting h { q with sequence := rest, inHand := none }))
      else s

/-- R58: every entry of a closure sequence ends as "station dropped", in order, each judged by R57. -/
def Sys2Proof.Claims.sequenceDropped (h : Nat) : List Closure → State → State
  | [], s =>
    match s.routing h with
    | none => s
    | some q => s.putRouting h { q with sequence := [], inHand := none }
  | c :: rest, s =>
    match s.routing h with
    | none => s
    | some q => sequenceDropped h rest (closeJudged h c.valve (q.confirmed[c.valve]? == some .closed)
        (s.putRouting h { q with sequence := rest, inHand := none }))

/-- R51: the valves whose OPENs a cause withdraws. For BLIND, R50 and R60 name the outlets beside the inlet of R51's table
(log 33). -/
def Sys2Proof.Claims.withdraws (cause : SupersessionCause) (v : Nat) : Bool :=
  match cause with
  | .top => v == 0
  | .blind => decide (v ≤ 6)
  | .landed => decide (1 ≤ v ∧ v ≤ 6)
  | .low => decide (1 ≤ v ∧ v ≤ 6)
  | .out => decide (v ≤ 6)
  | _ => false

/-- R51: the valves a cause closes. -/
def Sys2Proof.Claims.closes : SupersessionCause → List Nat
  | .top => [0]
  | .blind => [0]
  | .landed => [1, 2, 3, 4, 5, 6]
  | _ => []

/-- R47, R52, R53: the valve of an office OPEN that a cause withdraws. -/
def Sys2Proof.Claims.opensWithdrawn (cause : SupersessionCause) (o : Order) : Option Nat :=
  if o.origin = .office ∧ o.body.length = 3 ∧ octetAt o.body 0 = 1 ∧ withdraws cause (field o.body 1 2) = true then
    some (field o.body 1 2)
  else none

/-- R52, R53: the OPENs a cause names leave a station's slot and list, with SUPERSEDED owed for each, slot first, then head
to tail. -/
def Sys2Proof.Claims.withdrawn (a : Nat) (cause : SupersessionCause) (s : State) : State :=
  match s.station a with
  | none => s
  | some e =>
    let t := match e.slot.order? with
      | some o => if (opensWithdrawn cause o).isSome then supersededOwed cause o (slotEmptied a s) else s
      | none => s
    (e.pendingList.filter (fun o => (opensWithdrawn cause o).isSome)).foldl (fun t o => supersededOwed cause o t)
      (t.modStation a (fun x => { x with pendingList := e.pendingList.filter (fun o => (opensWithdrawn cause o).isNone) }))

/-- R55: one valve added to a closure sequence, by the table; `abandoned` is the valve whose OPEN the cause abandoned. That
an entry keeps the cause that added it is the model's reading (log 15): R54 gives an entry its valve and forced mark. -/
def Sys2Proof.Claims.valveAdded (cause : SupersessionCause) (abandoned : Option Nat) (q : Routing) (v : Nat) : Routing :=
  let forced := abandoned == some v
  if q.sequence.any (fun c => c.valve == v) then
    { q with sequence := q.sequence.map (fun c => { c with forced := c.forced || (c.valve == v && forced) }) }
  else if forced = false ∧ q.confirmed[v]? = some .closed then q
  else
    let kept := if q.inHand = none then 0 else 1
    let rest := q.sequence.drop kept
    let before := fun c : Closure => decide (c.valve ≤ v)
    { q with sequence := q.sequence.take kept ++ rest.takeWhile before ++ ⟨v, forced, cause⟩ :: rest.dropWhile before }

/-- R51 to R56: a cause acts as one whole, and only then does the slot take the head of the list. -/
def Sys2Proof.Claims.causeTaken (h : Nat) (cause : SupersessionCause) (s : State) : State :=
  match s.holder h with
  | none => s
  | some r =>
    let a := r.valveStation
    let abandoned := ((s.station a).bind (fun e => e.slot.order?)).bind (opensWithdrawn cause)
    let t := withdrawn a cause s
    let t := match t.routing h with
      | none => t
      | some q => t.putRouting h ((closes cause).foldl (valveAdded cause abandoned) q)
    headTaken a (if closes cause = [] then t else sequenceHanded h t)

/-! ### Words: reckoning (R24 to R40) -/

/-- R32: the yard stock formed afresh. -/
def Sys2Proof.Claims.yardFormed (s : State) : State :=
  { s with yardStock := ((List.range 8).map (fun i => (s.holder (i + 1)).elim 0 (fun r =>
      if r.inReckoning then r.stock.getD 0 else 0))).sum }

/-- R34: the alarm of a condition. -/
def Sys2Proof.Claims.alarmOf : Condition → Option AlarmKind
  | .landed => some .holderLanded
  | .low => some .holderLow
  | .normal => none
  | .high => some .holderHigh
  | .top => some .holderTop

/-- R34: a condition's alarm raised, or cleared. -/
def Sys2Proof.Claims.conditionRaised (h : Nat) (c : Condition) (s : State) : State :=
  (alarmOf c).elim s (fun k => raised k h s)
def Sys2Proof.Claims.conditionCleared (h : Nat) (c : Condition) (s : State) : State :=
  (alarmOf c).elim s (fun k => cleared k h s)

/-- R34: the actions of a change of condition. -/
def Sys2Proof.Claims.conditionTaken (h : Nat) (after : Condition) (s : State) : State :=
  match s.holder h with
  | none => s
  | some r =>
    let t := conditionRaised h after (conditionCleared h r.condition s)
    let t := oweReference (.holder h) (t.putHolder h { r with condition := after })
    let t := match after with
      | .top => causeTaken h .top t
      | .landed => causeTaken h .landed t
      | .low => causeTaken h .low t
      | _ => t
    if r.condition = .landed ∨ after = .landed then supplyRecomputed t else t

/-- R36: the actions of becoming blind. -/
def Sys2Proof.Claims.blindTaken (h : Nat) (s : State) : State :=
  match s.holder h with
  | none => s
  | some r =>
    if r.blind = true then s
    else partialFlagged (causeTaken h .blind (oweReference (.holder h)
      (raised .holderBlind h (s.putHolder h { r with blind := true, quality := .stale }))))

/-- R21: the lift table is complete: every stage up to the count is loaded, and the pickup rises increase. -/
def Sys2Proof.Claims.tableComplete (r : Holder) : Prop :=
  1 ≤ r.stageCount ∧ (∀ l ∈ r.lifts.toList.take r.stageCount, l ≠ none) ∧
    ((r.lifts.toList.take r.stageCount).filterMap (fun l => l.map (·.pickup))).Pairwise (· < ·)

/-- The entry of stage k. -/
def Sys2Proof.Claims.liftAt (r : Holder) (k : Nat) : Lift := ((r.lifts[k - 1]?).join).getD ⟨0, 0, 0⟩

/-- R25: the largest stage whose pickup rise is not above h. -/
def Sys2Proof.Claims.stageAt (r : Holder) (h : Nat) : Nat :=
  (((List.range (min r.stageCount 4)).map (· + 1)).filter (fun k => (liftAt r k).pickup ≤ h)).getLast?.getD 1

/-- R26: the actual volume, each section by its span, divided by 100 once and rounded. -/
def Sys2Proof.Claims.volumeAt (r : Holder) (h : Nat) : Nat :=
  let k := stageAt r h
  let below := ((List.range (k - 1)).map (fun i =>
    (liftAt r (i + 1)).area * ((liftAt r (i + 2)).pickup - (liftAt r (i + 1)).pickup))).sum
  r.baseVolume + (2 * (below + (liftAt r k).area * (h - (liftAt r k).pickup)) + 100) / 200

/-- The value of a named, loaded, GOOD point that lies in a range. -/
def Sys2Proof.Claims.valueWithin (n : Option Nat) (lo hi : Int) (s : State) : Option Int :=
  (n.bind s.point).bind (fun p => if p.quality = .good then p.value.filter (fun v => decide (lo ≤ v ∧ v ≤ hi)) else none)

/-- R27: the holder pressure at a stage (stages count from 1), and whether a GOOD measured value out of its range was
passed over. -/
def Sys2Proof.Claims.pressureAt (r : Holder) (stage : Option Nat) (s : State) : Option Nat × Bool :=
  match stage with
  | none => (none, false)
  | some k =>
    match valueWithin r.pressurePoint 0 10000 s with
    | some v => (some v.toNat, false)
    | none =>
      ((if k = 0 then none else (r.lifts[k - 1]?).join).map (·.pressure),
        (r.pressurePoint.bind s.point).any (fun p => p.quality == .good && p.value.isSome))

/-- R24 to R31: the fields a reckoning of gauge value g writes. The correction is R30's. -/
def Sys2Proof.Claims.recordReckoned (r : Holder) (g : Int) (s : State) : Holder :=
  let h := min r.topRise g.toNat
  let k := stageAt r h
  let pressure := pressureAt r (some k) s
  let temperature := valueWithin r.temperaturePoint (-2000) 5000 s
  let standard := standardCorrection (volumeAt r h) (pressure.1.getD 0) (temperature.getD 1500) s
  let above := decide ((r.topRise : Int) < g)
  { r with
    rise := some h, stage := some k, actualVolume := some (volumeAt r h), pressure := pressure.1
    stock := some standard.1, overTop := above
    quality := if g < 0 ∨ above = true ∨ pressure.2 = true ∨ temperature = none ∨ standard.2 = true then .degraded
      else .good }

/-- R33: the condition by the first row that applies. -/
def Sys2Proof.Claims.conditionBy (r : Holder) (h : Nat) : Condition :=
  if h ≥ r.topMark then .top
  else if h ≤ r.landedMark then .landed
  else if r.condition = .top ∧ (h : Int) ≥ r.topMark - r.hysteresis then .top
  else if r.condition = .landed ∧ h ≤ r.landedMark + r.hysteresis then .landed
  else if h ≥ r.highMark then .high
  else if h ≤ r.lowMark then .low
  else if (r.condition = .top ∨ r.condition = .high) ∧ (h : Int) ≥ r.highMark - r.hysteresis then .high
  else if (r.condition = .landed ∨ r.condition = .low) ∧ h ≤ r.lowMark + r.hysteresis then .low
  else .normal

/-- R31: a reckoning writes its fields and acts on them in the order of the table. -/
def Sys2Proof.Claims.reckoningTaken (k : Nat) (g : Int) (s : State) : State :=
  match s.holder k with
  | none => s
  | some r =>
    let q := recordReckoned r g s
    let after := conditionBy r (min r.topRise g.toNat)
    let t := yardFormed (s.putHolder k q)
    let t := if q.overTop = r.overTop then t else if q.overTop then raised .overTop k t else cleared .overTop k t
    let t := if r.blind then oweReference (.holder k) (cleared .holderBlind k (t.putHolder k { q with blind := false }))
      else t
    let t := if after = r.condition then t else conditionTaken k after t
    if q.stage = r.stage ∧ q.pressure = r.pressure then t else supplyRecomputed t

/-! ### Words: SAMPLE bodies (R3, R9 to R11) -/

/-- R3: a well-formed body. -/
def Sys2Proof.Claims.sampleFits (body : List Byte) : Bool :=
  decide ((1 ≤ octetAt body 0 ∧ octetAt body 0 ≤ 14) ∧ body.length = 1 + 4 * octetAt body 0)

/-- R3: the raw entries of a well-formed body, in body order. -/
def Sys2Proof.Claims.entriesOf (body : List Byte) : List RawEntry :=
  (List.range (octetAt body 0)).map (fun i =>
    ⟨octetAt body (1 + 4 * i), octetAt body (2 + 4 * i), field body (3 + 4 * i) 2⟩)

/-- R3: a SAMPLE converted entry by entry; a body that is not well formed converts none. -/
def Sys2Proof.Claims.sampleTaken (a : Nat) (body : List Byte) (s : State) : State :=
  if sampleFits body then (entriesOf body).foldl (takeEntry a) s else s

/-- R9, R10: the kept raw entries and the annotated ones, taken in body order at a running body length. -/
def Sys2Proof.Claims.entriesRewritten (a : Nat) (s : State) : List RawEntry → Nat → List RawEntry × List (List Byte)
  | [], _ => ([], [])
  | e :: rest, length =>
    match (findPoint a e.channel s).bind s.point with
    | none => let w := entriesRewritten a s rest length; (e :: w.1, w.2)
    | some p =>
      if p.forward = .suppress then entriesRewritten a s rest (length - 4)
      else if p.forward = .annotate ∧ length + 6 ≤ 58 then
        let w := entriesRewritten a s rest (length + 6)
        (e :: w.1, (octet (e.channel + 16) :: octet p.quality.code :: signedForm 4 (some (p.value.getD 0))) :: w.2)
      else let w := entriesRewritten a s rest length; (e :: w.1, w.2)

/-- R9 to R11: what goes to the office: a body that is not well formed as it arrived, any other rewritten, and nothing
where no raw entry is kept. -/
def Sys2Proof.Claims.officeSample (octets : List Byte) (s : State) : Option (List Byte) :=
  let body := bodyOf octets
  if sampleFits body then
    let w := entriesRewritten (sourceOf octets) s (entriesOf body) body.length
    if w.1 = [] then none
    else some (frame (destinationOf octets) (sourceOf octets) (kindOf octets)
      (octet (w.1.length + w.2.length)
        :: (w.1.flatMap (fun e => octet e.channel :: octet e.quality :: octetsOf 2 e.value) ++ w.2.flatten)))
  else some octets

/-- R8: the points of a station that are not NONE and not STALE become STALE, in ascending point number, each handed on as a
quality change. -/
def Sys2Proof.Claims.pointsStale (a : Nat) (s : State) : State :=
  (List.range 192).foldl (fun t n =>
    match t.point n with
    | none => t
    | some p =>
      if p.station = a ∧ p.quality ≠ .none ∧ p.quality ≠ .stale then
        handUpdate ⟨n, p.kind, p.value, .stale, false⟩ (t.putPoint n (some { p with quality := .stale }))
      else t) s

/-! ### Words: meters (R107 to R112) -/

/-- R102, R111: volume, energy and flags added to an hour's record of a target. -/
def Sys2Proof.Claims.inTarget (target : MeterTarget) (volume energy : Nat) (flags : HourFlags) (r : Hour) : Hour :=
  match target with
  | .outlet d => inDistrict d (fun q =>
      { q with volume := q.volume + volume, energy := q.energy + energy, flags := q.flags.union flags }) r
  | .make k => inMake k (fun q =>
      { q with volume := q.volume + volume, energy := q.energy + energy, flags := q.flags.union flags }) r

/-- R111: volume, energy and flags go to the open record of a meter's target, or while the clock is INVALID to the meter's
unclocked accumulators. -/
def Sys2Proof.Claims.summed (m : Nat) (r : Meter) (volume energy : Nat) (flags : HourFlags) (s : State) : State :=
  if s.clock.valid then
    inOpenHour (inTarget r.target volume energy flags) (s.putMeter m r)
  else s.putMeter m { r with
    unclockedVolume := r.unclockedVolume + volume, unclockedEnergy := r.unclockedEnergy + energy
    unclockedFlags := r.unclockedFlags.union flags }

/-- R107: COUNT-GAP alone. -/
def Sys2Proof.Claims.gapFlag : HourFlags := ⟨true, false, false, false, false⟩

/-- R108 to R111: a GOOD COUNT value c. A delta of 0 adds an increment of 0 with its flags (log 39). -/
def Sys2Proof.Claims.countTaken (m c : Nat) (r : Meter) (s : State) : State :=
  let delta := (c + 65536 - r.lastCount) % 65536
  let q := { r with lastCount := c, lastCountValid := true }
  let pressure := valueWithin r.pressurePoint 0 10000 s
  let temperature := valueWithin r.temperaturePoint (-2000) 5000 s
  let standard := standardCorrection (delta * r.pulseWeight) (pressure.getD r.fixedPressure) (temperature.getD 1500) s
  let calorific := valueWithin s.settings.calorimeterPoint 10000 30000 s
  let degraded := (r.pressurePoint.isSome && pressure.isNone) || (r.temperaturePoint.isSome && temperature.isNone)
    || standard.2
  if r.lastCountValid = false then s.putMeter m q
  else if r.deltaLimit < delta then summed m q 0 0 gapFlag (raised .meterJump m (s.putMeter m q))
  else cleared .meterJump m (summed m q standard.1
    (standard.1 * (calorific.elim s.settings.declaredCv (·.toNat))) ⟨false, calorific.isNone, false, false, degraded⟩ s)

/-- R112: a GOOD PERIOD value p. -/
def Sys2Proof.Claims.periodTaken (m p : Nat) (r : Meter) (s : State) : State :=
  let rate := if p = 0 then 0 else (2 * (r.pulseWeight * 360) + p) / (2 * p)
  let t := s.putMeter m { r with rate := rate }
  match r.target with
  | .make _ => t
  | .outlet d => inOpenHour (inDistrict d (fun q => { q with peakRate := max q.peakRate rate })) t

/-- R107: what a point update does at one meter, by role. -/
def Sys2Proof.Claims.meterUpdated (u : PointUpdate) (s : State) (m : Nat) : State :=
  match s.meter m with
  | none => s
  | some r =>
    if u.kind = .count ∧ r.countPoint = u.number then
      if u.fromEntry = true then
        match u.quality, u.value with
        | .good, some v => countTaken m v.toNat r s
        | _, _ => s
      else if u.quality = .stale ∨ u.quality = .none then summed m { r with lastCountValid := false } 0 0 gapFlag s
      else s
    else if u.kind = .period ∧ r.periodPoint = some u.number ∧ u.fromEntry = true then
      match u.quality, u.value with
      | .good, some v => periodTaken m v.toNat r s
      | _, _ => s
    else s

/-- R89, R114: a GOOD entry of a district's tell-tale point lowers the minimum tell-tale of the open hour. -/
def Sys2Proof.Claims.tellTaleTaken (u : PointUpdate) (s : State) (d : Nat) : State :=
  match s.district d, u.value with
  | some r, some v =>
    if r.tellTalePoint = some u.number ∧ u.fromEntry = true ∧ u.quality = .good then
      inOpenHour (inDistrict d (fun q => { q with minTellTale := some (q.minTellTale.elim v (fun w => min w v)) })) s
    else s
  | _, _ => s

/-! ### Words: hours and days (R113, R115, R116) -/

/-- R113: a district record of an opened hour: the outlet meter's rate and the active setpoint join what it holds. -/
def Sys2Proof.Claims.districtOpened (s : State) (d : Nat) (q : DistrictHour) : DistrictHour :=
  let outlet := ((List.range 8).filterMap (fun i => s.meter (i + 1))).find? (fun m => m.target == .outlet d)
  let q := { q with peakRate := max q.peakRate (outlet.elim 0 (·.rate)) }
  ((s.district d).bind (·.active)).elim q (fun v => widened v q)

/-- R113, R115: whether any loaded holder is OUT of reckoning or blind. -/
def Sys2Proof.Claims.someHolderApart (s : State) : Bool :=
  s.holders.toList.any (fun h => h.any (fun r => !r.inReckoning || r.blind))

/-- R113: an hour opened, or a CLOSED one reopened with CLOCK-SET. -/
def Sys2Proof.Claims.hourOpened (s : State) (r : Hour) : Hour :=
  inFlags (fun q =>
      { q with
        clockSet := q.clockSet || r.state == .closed, stockPartial := q.stockPartial || someHolderApart s })
    { r with
      state := .opened
      districts := Vector.ofFn (fun i : Fin 6 => districtOpened s (i.val + 1) r.districts[i]) }

/-- R113: the hour of the present time opened in the current book; one already open stays so. -/
def Sys2Proof.Claims.presentHourOpened (s : State) : State :=
  { s with currentBook := s.currentBook.map (fun b =>
      let n := (s.clock.timeOfDay / 3600 + 24 - b.startHour) % 24
      { b with hours := Vector.ofFn (fun i : Fin 24 =>
          if i.val = n ∧ b.hours[i].state ≠ .opened then hourOpened s b.hours[i] else b.hours[i]) }) }

/-- R115: the flags a close sets on every record of the open hour. -/
def Sys2Proof.Claims.closingFlags (clockSet : Bool) (s : State) (q : HourFlags) : HourFlags :=
  { q with
    clockSet := q.clockSet || clockSet
    stockPartial := q.stockPartial || someHolderApart s }

/-- R115: the open records of a book closed, with the hour-end stock. -/
def Sys2Proof.Claims.hoursClosed (clockSet : Bool) (s : State) (b : DayBook) : DayBook :=
  { b with hours := b.hours.map (fun r =>
      if r.state = .opened then
        { r with
          state := .closed, endStock := some s.yardStock
          districts := r.districts.map (fun q => { q with flags := closingFlags clockSet s q.flags })
          makes := r.makes.map (fun q => { q with flags := closingFlags clockSet s q.flags }) }
      else r) }

/-- R115, step 5: the sections of an hour's HOUR-CLOSE reports, in order: the districts with a loaded record or a loaded
OUTLET meter, then make and stock. -/
def Sys2Proof.Claims.sectionsReported (s : State) : List Nat :=
  [1, 2, 3, 4, 5, 6].filter (fun d =>
    (s.district d).isSome || (List.range 8).any (fun i => (s.meter (i + 1)).any (fun m => m.target == .outlet d))) ++ [7]

/-- R115, steps 1 to 5: the open hour n of the current book b closed. -/
def Sys2Proof.Claims.hourClosed (clockSet : Bool) (b : DayBook) (n : Nat) (s : State) : State :=
  (sectionsReported s).foldl (fun t part => oweReference (.hour b.serial b.gasDay n part) t)
    { s with currentBook := some (hoursClosed clockSet s b), clock := { s.clock with setMark := false } }

/-- R116, step 2: the day totals of a book. -/
def Sys2Proof.Claims.totalsOf (b : DayBook) : DayTotals :=
  let sum := fun f : Hour → Nat => (b.hours.toList.map f).sum
  { districtVolume := Vector.ofFn (fun i : Fin 6 => sum (fun r => r.districts[i].volume))
    districtEnergy := Vector.ofFn (fun i : Fin 6 => sum (fun r => r.districts[i].energy))
    makeVolume := Vector.ofFn (fun i : Fin 2 => sum (fun r => r.makes[i].volume))
    makeEnergy := Vector.ofFn (fun i : Fin 2 => sum (fun r => r.makes[i].energy))
    sendOut := sum (fun r => (r.districts.toList.map (·.volume)).sum)
    make := sum (fun r => (r.makes.toList.map (·.volume)).sum)
    flags :=
      let flagOfDay := fun f : HourFlags → Bool => b.hours.toList.any (fun r =>
        r.districts.toList.any (fun q => f q.flags) || r.makes.toList.any (fun q => f q.flags))
      ⟨flagOfDay (·.countGap), flagOfDay (·.cvDeclared), flagOfDay (·.clockSet), flagOfDay (·.stockPartial),
        flagOfDay (·.correctionDegraded)⟩ }

/-- R102, R113, R116: a current book opened for the gas day of the present time, with the start hour of the Yard
Settings. -/
def Sys2Proof.Claims.bookOpened (opening : Nat) (s : State) : State :=
  let start := s.settings.startHour
  { s with
    serial := s.serial + 1
    currentBook := some
      { serial := s.serial
        gasDay := if start ≤ s.clock.timeOfDay / 3600 then s.clock.dayCount else (s.clock.dayCount + 65535) % 65536
        startHour := start, opening := opening, closing := none, totals := none, uag := none, collected := false
        hours := Vector.replicate 24 ⟨.notOpened, Vector.replicate 6 ⟨0, 0, 0, none, none, none, HourFlags.clear⟩,
          Vector.replicate 2 ⟨0, 0, HourFlags.clear⟩, none⟩ } }

/-- R102, R104: CLOCK-SET on every record of the open hour. -/
def Sys2Proof.Claims.clockSetFlagged (s : State) : State := inOpenHour (inFlags (fun q => { q with clockSet := true })) s

/-- R102: a meter's unclocked accumulators added to the open record of its target, with their flags, and emptied. -/
def Sys2Proof.Claims.unclockedAdded (s : State) (m : Nat) : State :=
  match s.meter m with
  | none => s
  | some r => inOpenHour (inTarget r.target r.unclockedVolume r.unclockedEnergy r.unclockedFlags)
      (s.putMeter m { r with unclockedVolume := 0, unclockedEnergy := 0, unclockedFlags := HourFlags.clear })

/-- R116: the current book b closed and succeeded; DAY-OVERWRITTEN is raised over a previous book that is not collected,
and DAY-CLOSE is owed. -/
def Sys2Proof.Claims.dayClosed (b : DayBook) (s : State) : State :=
  let t := if s.previousBook.any (fun p => !p.collected) then raised .dayOverwritten 0 s else s
  let totals := totalsOf b
  oweReference (.day b.serial b.gasDay) (bookOpened s.yardStock { t with
    previousBook := some { b with
      closing := some s.yardStock, totals := some totals
      uag := some ((b.opening : Int) + totals.make - totals.sendOut - s.yardStock) } })

/-! ### Words: endings of governor orders (R83) -/

/-- R70: a REPLY's result is DONE. -/
def Sys2Proof.Claims.resultDone (body : List Byte) : Bool := (body[3]?).any (fun o => o.toNat == 0)

/-- R83: a completed SET or RELEASE taken by a district that still names the station as its governor. A body of 7 octets
gives the governor view. SET is told by the order code (log 20). -/
def Sys2Proof.Claims.governorTaken (d : Nat) (o : Order) (body : List Byte) (s : State) : State :=
  match s.district d with
  | none => s
  | some r =>
    let seen := if body.length = 7 then
        { r with reportedSetpoint := some (field body 4 2), releasedMark := boolOf (octetAt body 6) }
      else r
    if r.governor ≠ o.station then s
    else if o.code ≠ some 3 then s.putDistrict d seen
    else
      match o.operand with
      | none => s.putDistrict d { seen with setFailed := true }
      | some v =>
        if resultDone body = false then s.putDistrict d { seen with setFailed := true }
        else
          let t := s.putDistrict d { seen with lastSent := some v, setFailed := false }
          let t := if r.mode = .auto then t else activeWritten d v t
          if r.lastSent = some v then t else oweReference (.district d) t

/-- R70 to R72: an order o completed by a REPLY body leaves the slot and its claim, is handed on by its origin, and the
head of the pending list is taken. That R83's hand-over comes before ORDER-FAILED is log 35. -/
def Sys2Proof.Claims.orderCompleted (a : Nat) (o : Order) (body : List Byte) (s : State) : State :=
  let w := slotEmptied a s
  headTaken a
    (match o.origin with
      | .office =>
        if o.body.length = 3 ∧ (o.code = some 3 ∨ o.code = some 4) then
          (w.districtOfStation o.station).elim w (fun d => governorTaken d o body w)
        else w
      | .interlock => (w.holderOfStation o.station).elim w (fun h => closeEnding h o (resultDone body) w)
      | .scheduler d =>
        let t := governorTaken d o body w
        if resultDone body then cleared .orderFailed d t else raised .orderFailed d t)

/-! ### Words: offers to the claims (R153, R154) -/

/-- R154, step 1: a buffer becomes free in its class and leaves its port's charge count. -/
def Sys2Proof.Claims.released (b : Buffer) (s : State) : State :=
  let l := match b.cls with
    | .general => { s.line with freeGeneral := s.line.freeGeneral + 1 }
    | .reserve => { s.line with freeReserve := s.line.freeReserve + 1 }
  { s with line :=
    match b.charge with
    | none => l
    | some p => l.setCharge p (l.charge p - 1) }

/-- R153: one pass over the claims, head to tail. A claim that is met leaves the list, any other keeps its place. A send
that gives buffers back (R67) ends the pass (log 19). -/
def Sys2Proof.Claims.offeredOnce : List Claim → State → List Buffer × State
  | [], s => ([], s)
  | c :: rest, s =>
    if c ∈ s.claims then
      match offerClaim c s with
      | none => offeredOnce rest s
      | some (given, t) => if given = [] then offeredOnce rest t else (given, t)
    else offeredOnce rest s

/-- R154: a freeing: the buffer becomes free, the claims are offered, and the holding test is made. Each buffer that a met
send gives back is freed in the same way, one after the other, before that test (log 19). The depth is that of freeings
within freeings; each has one claim fewer. -/
def Sys2Proof.Claims.freed : Nat → Buffer → State → State
  | 0, b, s => holdingTest (released b s)
  | depth + 1, b, s =>
    let x := offeredOnce (released b s).claims (released b s)
    holdingTest (x.1.foldl (fun t b => freed depth b t) x.2)

/-! ### Words: forms and reports (R149, R167, R168) -/

/-- A number in k octets, high octet first. -/
def Sys2Proof.Claims.laid (k v : Nat) : List Byte := (List.range k).map (fun i => octet (v / 256 ^ (k - 1 - i)))

/-- R149: an unsigned form of k octets. A value that does not fit is free (log 10). -/
def Sys2Proof.Claims.num (k : Nat) (v : Int) : List Byte :=
  laid k (if 0 ≤ v ∧ v < 256 ^ k then v.toNat else Config.unstatedForm k v)

/-- R149: the absent value of an unsigned form. -/
def Sys2Proof.Claims.absent (k : Nat) : List Byte := List.replicate k 255

/-- R149: a field that may be absent. -/
def Sys2Proof.Claims.numOr (k : Nat) (v : Option Nat) : List Byte := v.elim (absent k) (fun n => num k n)

/-- R149: a signed form of k octets, in two's complement; absent is its lowest value. A value that does not fit is free
(log 10). -/
def Sys2Proof.Claims.signedOr (k : Nat) : Option Int → List Byte
  | none => octet 128 :: List.replicate (k - 1) 0
  | some v => laid k (if -(2 ^ (8 * k - 1)) ≤ v ∧ v < 2 ^ (8 * k - 1) then (v % 2 ^ (8 * k)).toNat
      else Config.unstatedForm k v)

/-- Chapter 8, Codes: a flag, enable or yes-no octet. -/
def Sys2Proof.Claims.yes (b : Bool) : List Byte := num 1 (if b then 1 else 0)

/-- R149: a flag set, the flags taking the values 1, 2, 4, 8, 16 in order. -/
def Sys2Proof.Claims.flagSet (flags : List Bool) : List Byte :=
  num 1 ((flags.zipIdx.map (fun x => if x.1 then 2 ^ x.2 else 0)).sum : Nat)

/-- R168 note 2: hour and day flags. -/
def Sys2Proof.Claims.flagsShown (f : HourFlags) : List Byte :=
  flagSet [f.countGap, f.cvDeclared, f.clockSet, f.stockPartial, f.correctionDegraded]

/-- A flag set of a record no longer held is free: R149 gives its form no absent value (log 10). -/
def Sys2Proof.Claims.flagsAbsent : List Byte := num 1 (-1)

/-- Chapter 8, Codes: the kinds of alarm, from code 1. -/
def Sys2Proof.Claims.alarmKinds : List AlarmKind :=
  [.overTop, .holderHigh, .holderTop, .holderLow, .holderLanded, .holderBlind, .closeFailed, .orderFailed, .districtShort,
    .districtUnsupplied, .meterJump, .dayOverwritten, .stationSilent, .stationMoved]

/-- Chapter 8, Codes: refusal reasons and supersession causes, from code 1. -/
def Sys2Proof.Claims.refusalReasons : List RefusalReason :=
  [.notReckoned, .blind, .notPermitted, .atTop, .atLow, .busy, .noReply, .outOfRange, .notAllowed]
def Sys2Proof.Claims.supersessionCauses : List SupersessionCause := [.top, .blind, .landed, .low, .out, .governor, .dropped]

/-- R168: an alarm's kind, subject and valve. -/
def Sys2Proof.Claims.keyShown (key : AlarmKey) : List Byte :=
  num 1 (alarmKinds.idxOf key.kind + 1) ++ num 1 key.subject ++ numOr 1 key.valve

/-- R168: ALARM content; the state is 0 ACTIVE, 1 CLEARED-UNACKED or 2 REMOVED. -/
def Sys2Proof.Claims.alarmShown (r : Alarm) (state : Nat) : List Byte :=
  keyShown r.key ++ num 1 state ++ num 1 r.count ++ numOr 4 r.firstTime ++ numOr 4 r.lastTime ++ yes r.acknowledged

/-- R168: the state code of a record that is held. -/
def Sys2Proof.Claims.alarmStateCode (r : Alarm) : Nat := if r.state = .active then 0 else 1

/-- R168: the codes of condition and stock quality. -/
def Sys2Proof.Claims.conditionShown (c : Condition) : List Byte :=
  num 1 ([Condition.landed, .low, .normal, .high, .top].idxOf c)
def Sys2Proof.Claims.stockQualityShown (q : StockQuality) : List Byte :=
  num 1 ([StockQuality.good, .degraded, .stale].idxOf q)

/-- R168: HOLDER-STATE content. -/
def Sys2Proof.Claims.holderShown (h : Nat) (r : Holder) : List Byte :=
  num 1 h ++ yes r.inReckoning ++ conditionShown r.condition ++ yes r.blind ++ yes r.overTop ++ numOr 1 r.stage
    ++ numOr 2 r.rise ++ numOr 4 r.actualVolume ++ numOr 5 r.stock ++ numOr 2 r.pressure ++ stockQualityShown r.quality

/-- Chapter 8, Codes: a district's mode. -/
def Sys2Proof.Claims.modeShown (m : Mode) : List Byte := num 1 ([Mode.released, .manual, .auto].idxOf m)

/-- A released mark. -/
def Sys2Proof.Claims.markShown (m : Option Bool) : List Byte := m.elim (absent 1) yes

/-- R168: SETPOINT content; the supply state is 0 SUPPLIED, 1 UNSUPPLIED. -/
def Sys2Proof.Claims.setpointShown (d : Nat) (r : District) : List Byte :=
  num 1 d ++ modeShown r.mode ++ numOr 2 r.active ++ numOr 2 r.lastSent ++ numOr 2 r.lastTarget ++ num 2 r.supplyLimit
    ++ yes (!r.supplied) ++ num 2 r.correction ++ num 2 r.fogRaise ++ num 2 r.generation ++ yes r.nextPending
    ++ yes r.setFailed ++ numOr 2 r.reportedSetpoint ++ markShown r.releasedMark

/-- R168 note 1: the state of an hour record. -/
def Sys2Proof.Claims.hourStateShown (x : HourState) : List Byte := num 1 ([HourState.notOpened, .opened, .closed].idxOf x)

/-- R168: HOUR-CLOSE content of district d. -/
def Sys2Proof.Claims.districtHourShown (gasDay n d : Nat) (state : HourState) (q : DistrictHour) : List Byte :=
  num 2 gasDay ++ num 1 n ++ num 1 d ++ hourStateShown state ++ num 5 q.volume ++ num 6 q.energy ++ num 4 q.peakRate
    ++ q.minTellTale.elim (absent 2) (num 2) ++ numOr 2 q.minActive ++ numOr 2 q.maxActive ++ flagsShown q.flags

/-- R168: HOUR-CLOSE content, make and stock. -/
def Sys2Proof.Claims.makeStockShown (gasDay n : Nat) (r : Hour) : List Byte :=
  let make := fun q : MakeHour => hourStateShown r.state ++ num 5 q.volume ++ num 6 q.energy ++ flagsShown q.flags
  num 2 gasDay ++ num 1 n ++ num 1 7 ++ make r.makes[0] ++ make r.makes[1] ++ numOr 5 r.endStock

/-- R168 note 1: HOUR-CLOSE content where the book has ceased to be: state 3, every other field absent. -/
def Sys2Proof.Claims.hourGone (gasDay n part : Nat) : List Byte :=
  let make := num 1 3 ++ absent 5 ++ absent 6 ++ flagsAbsent
  num 2 gasDay ++ num 1 n ++ num 1 part ++
    (if part = 7 then make ++ make ++ absent 5
     else num 1 3 ++ absent 5 ++ absent 6 ++ absent 4 ++ absent 2 ++ absent 2 ++ absent 2 ++ flagsAbsent)

/-- R168: the three parts of DAY-CLOSE content of a book that is held. -/
def Sys2Proof.Claims.dayShown (b : DayBook) : List (List Byte) :=
  let pair := fun (volume energy : Option Nat) => numOr 5 volume ++ numOr 6 energy
  let of := fun f : DayTotals → Option Nat => b.totals.bind f
  let district := fun i : Nat => pair (of (fun t => t.districtVolume[i]?)) (of (fun t => t.districtEnergy[i]?))
  let make := fun i : Nat => pair (of (fun t => t.makeVolume[i]?)) (of (fun t => t.makeEnergy[i]?))
  [ num 2 b.gasDay ++ num 1 b.startHour ++ num 1 0 ++ num 5 b.opening ++ numOr 5 b.closing
      ++ numOr 5 (b.totals.map (·.sendOut)) ++ numOr 5 (b.totals.map (·.make)) ++ signedOr 6 b.uag
      ++ b.totals.elim flagsAbsent (fun t => flagsShown t.flags) ++ yes b.collected,
    num 2 b.gasDay ++ district 0 ++ district 1 ++ district 2 ++ district 3,
    num 2 b.gasDay ++ district 4 ++ district 5 ++ make 0 ++ make 1 ]

/-- R118, R168 note 1: DAY-CLOSE content where the book has ceased to be: held octet 1, every other field absent. -/
def Sys2Proof.Claims.dayGone (gasDay : Nat) : List (List Byte) :=
  [ num 2 gasDay ++ absent 1 ++ num 1 1 ++ absent 20 ++ signedOr 6 none ++ flagsAbsent ++ absent 1,
    num 2 gasDay ++ absent 44,
    num 2 gasDay ++ absent 44 ]

/-- R118: the book on which a report was owed, the current or the previous one. -/
def Sys2Proof.Claims.bookOf (serial : Nat) (s : State) : Option DayBook :=
  (s.currentBook.toList ++ s.previousBook.toList).find? (fun b => b.serial == serial)

/-- R118, R168: HOUR-CLOSE content of a section, a district 1 to 6 or 7, make and stock. -/
def Sys2Proof.Claims.hourShown (book gasDay n part : Nat) (s : State) : List Byte :=
  match (bookOf book s).bind (fun b => b.hours[n]?) with
  | none => hourGone gasDay n part
  | some r =>
    if part = 7 then makeStockShown gasDay n r
    else (r.districts[part - 1]?).elim (hourGone gasDay n part) (districtHourShown gasDay n part r.state)

/-- R167, R168: an entry's report, taken from the records as they stand: kind, whether it is URGENT, and the content of its
parts. A holder, district or alarm record that is not held is sent absent, an alarm as REMOVED (R168 note 1). -/
def Sys2Proof.Claims.reportOf (s : State) : EntryForm → ReportContent
  | .reference (.alarm key) => ⟨1, true,
      [(s.alarms.find? (fun r => r.key == key)).elim (keyShown key ++ num 1 2 ++ absent 10)
        (fun r => alarmShown r (alarmStateCode r))]⟩
  | .full (.removedAlarm r) => ⟨1, true, [alarmShown r 2]⟩
  | .full (.refusal a code operand reason) =>
    ⟨2, true, [num 1 a ++ numOr 1 code ++ numOr 2 operand ++ num 1 (refusalReasons.idxOf reason + 1)]⟩
  | .full (.superseded a code operand cause) =>
    ⟨3, true, [num 1 a ++ numOr 1 code ++ numOr 2 operand ++ num 1 0 ++ num 1 (supersessionCauses.idxOf cause + 1)]⟩
  | .reference (.holder h) => ⟨4, false, [(s.holder h).elim (num 1 h ++ absent 19) (holderShown h)]⟩
  | .reference (.district d) => ⟨5, false, [(s.district d).elim (num 1 d ++ absent 21) (setpointShown d)]⟩
  | .reference (.hour book gasDay n part) => ⟨6, false, [hourShown book gasDay n part s]⟩
  | .reference (.day book gasDay) => ⟨7, false, (bookOf book s).elim (dayGone gasDay) dayShown⟩
  | .full (.start cause) => ⟨8, false,
      [num 1 ([RestartCause.power, .cold, .warm].idxOf cause) ++ yes s.clock.valid ++ num 2 s.clock.dayCount
        ++ num 4 s.clock.timeOfDay]⟩

/-- R167: the head entry leaves the backlog with its last part; an alarm record's report-owed flag is cleared (R166). -/
def Sys2Proof.Claims.headLeft (e : Entry) (rest : List Entry) (s : State) : State :=
  { s with
    backlog := rest
    alarms := s.alarms.map (fun q => if e.form = .reference (.alarm q.key) then { q with reportOwed := false } else q) }

/-- R151: the buffer class a report part takes, and the counts after it; none where it finds no buffer. -/
def Sys2Proof.Claims.partTaking (urgent : Bool) (l : Line) : Option (BufferClass × Line) :=
  if 0 < l.freeGeneral then some (.general, { l with freeGeneral := l.freeGeneral - 1 })
  else if urgent = true ∧ 0 < l.freeReserve then some (.reserve, { l with freeReserve := l.freeReserve - 1 })
  else none

/-- R167: the next part of the head entry sent, none where it finds no buffer. The content is that held since the first part
or, for the first, taken now; the entry stays the head, holding what remains, until its last part has joined its queue.
`tested`: the holding test follows the taking; within a freeing it comes at the freeing's end (R154, R158). -/
def Sys2Proof.Claims.partSent (tested : Bool) (s : State) : Option State :=
  match s.backlog with
  | [] => none
  | e :: rest =>
    let r := reportOf s e.form
    let h := e.held.getD ⟨r.parts.length, r.parts⟩
    match h.remaining with
    | [] => some (headLeft e rest s)
    | part :: later =>
      (partTaking r.urgent s.line).map (fun x =>
        let t := { s with line := x.2 }
        let body := octet r.kind :: octet (h.partCount - later.length) :: octet h.partCount :: part
        let t := enqueue .o r.urgent ⟨⟨x.1, none⟩, frame 0 240 6 body, .plain⟩ (if tested then holdingTest t else t)
        if later = [] then headLeft e rest t
        else { t with backlog := { e with held := some ⟨h.partCount, later⟩ } :: rest })

/-- R167: parts are sent, and each new head taken at once, until the backlog is empty or a part waits with the claim. The
first argument bounds the parts. -/
def Sys2Proof.Claims.reportsSent (tested : Bool) : Nat → State → State
  | 0, s => s
  | n + 1, s =>
    if s.backlog = [] then s
    else
      match partSent tested s with
      | some t => reportsSent tested n t
      | none => { s with claims := if Claim.backlog ∈ s.claims then s.claims else s.claims ++ [.backlog] }

/-! ### The queue -/

/-- A step takes the command at the front of the queue; on an empty queue it idles (log 2). -/
def Obligations.StepTakesFront : Prop :=
  (∀ (c : Instr) (rest : List Instr) (s : State),
    step { s with pending := c :: rest } = exec c { s with pending := rest }) ∧
  ∀ s : State, s.pending = [] → step s = .next s

/-- Every command answers a next state and leaves the queue's rest as it stands. That a command which does not arise in the
state (a stopped timer's expiry, a telegram that is not there, an arrival while RESTARTING) answers a next state too is
the model's choice (log 1). -/
def Obligations.EveryCommandAnswersNext : Prop :=
  ∀ (c : Instr) (s : State), ∃ t, exec c s = .next t ∧ t.pending = s.pending

/-- R174: while the unit is RESTARTING nothing is received, sent or taken; only the application of supply, the completion
and the running clock act (log 1). -/
def Obligations.NothingTakenWhileRestarting : Prop :=
  ∀ (c : Instr) (s : State) (cause : RestartCause), s.unit = .restarting cause →
    c ≠ .powerOn → c ≠ .restartComplete → c ≠ .clockSecond → exec c s = .next s

/-- Which commands may change which state, restarts aside. -/
def Obligations.CommandsKeepOtherState : Prop :=
  ∀ (c : Instr) (s t : State), exec c s = .next t → isRestarting t = false →
    t.lastCause = s.lastCause ∧
    (c ≠ .loadSettings → t.settings = s.settings) ∧
    (c ≠ .loadVapour → t.vapour = s.vapour) ∧
    (c ≠ .reset → c ≠ .restartComplete → t.unit = s.unit) ∧
    (c ≠ .clockSecond → c ≠ .wholeHour → c ≠ .setClock → t.clock = s.clock) ∧
    (c ≠ .wholeHour → c ≠ .setClock → c ≠ .collectDay → t.previousBook = s.previousBook) ∧
    ((∀ p, c ≠ .sample p) → (∀ p, c ≠ .reply p) → (∀ a, c ≠ .agingTimerExpiry a) → c ≠ .loadStation →
      t.strangers = s.strangers) ∧
    (c ≠ .settleTimerExpiry → c ≠ .scanTimerExpiry → (∀ c0 c1 c2 c3, c ≠ .scanComplete c0 c1 c2 c3) →
      c ≠ .loadLocal → c ≠ .restartComplete → t.localConverter = s.localConverter) ∧
    ((∀ p, c ≠ .sample p) → (∀ c0 c1 c2 c3, c ≠ .scanComplete c0 c1 c2 c3) → (∀ a, c ≠ .waitingTimerExpiry a) →
      c ≠ .loadPoint → c ≠ .dropPoint → c ≠ .loadLocal →
      t.points = s.points ∧
      (c ≠ .loadMeter → c ≠ .setClock → t.meters = s.meters) ∧
      (c ≠ .loadHolder → c ≠ .loadLift → c ≠ .holderService → t.holders = s.holders ∧ t.yardStock = s.yardStock)) ∧
    (c ≠ .read → t.freeCount = s.freeCount)

/-! ### Restarts -/

/-- A port from the beginning of a restart: its timers are stopped until the end (log 23). -/
def Sys2Proof.Claims.portAtRestart (q : PortState) : PortState :=
  { q with
    receiver := .discarding false, frameEnd := .stopped, transmitter := .separating, separation := .stopped
    urgent := [], routine := [], runCount := 0 }

/-- The state at the beginning of a POWER or COLD restart: every piece of state at its power-on value. -/
def Sys2Proof.Claims.atFreshRestart (cause : RestartCause) (s : State) : State :=
  { State.reset with
    pending := s.pending, freeCount := s.freeCount, unit := .restarting cause, lastCause := cause, backlog := []
    line := { Line.reset with
      portO := portAtRestart Line.reset.portO, portN := portAtRestart Line.reset.portN
      portS := portAtRestart Line.reset.portS } }

/-- R173, R174: POWER_ON begins a restart in any state of the unit. Its completion leaves State.reset (log 16);
the timers of the ports are stopped until then (log 23). -/
def Obligations.PowerOnRestarts : Prop :=
  ∀ s : State, exec .powerOn s = .next (atFreshRestart .power s) ∧
    exec .restartComplete (atFreshRestart .power s)
      = .next { State.reset with pending := s.pending, freeCount := s.freeCount }

/-- R173, R174: the reset timer's expiry begins the restart of the kind held. COLD gives every piece of state its power-on
value; WARM keeps what each chapter's restart rule keeps. The timers of the ports are stopped until the end (log 23). -/
def Obligations.ResetTimerBeginsRestart : Prop :=
  ∀ s : State,
    (s.unit = .resetPending .cold → exec .resetTimerExpiry s = .next (atFreshRestart .cold s)) ∧
    (s.unit = .resetPending .warm → ∃ t, exec .resetTimerExpiry s = .next t ∧
      t.unit = .restarting .warm ∧ t.lastCause = .warm ∧
      t.settings = s.settings ∧ t.vapour = s.vapour ∧ t.yardStock = s.yardStock ∧ t.outletSets = s.outletSets ∧
      t.clock = s.clock ∧ t.meters = s.meters ∧ t.currentBook = s.currentBook ∧ t.previousBook = s.previousBook ∧
      t.alarms = s.alarms ∧ t.alarmOverflow = s.alarmOverflow ∧ t.backlogOverflow = s.backlogOverflow ∧
      t.pending = s.pending ∧ t.serial = s.serial ∧ t.freeCount = s.freeCount ∧
      t.claims = [] ∧ t.strangers = [] ∧ t.backlog = [] ∧
      t.line = { Line.reset with
        portO := portAtRestart s.line.portO, portN := portAtRestart s.line.portN
        portS := portAtRestart s.line.portS } ∧
      t.directory = s.directory.map (fun e =>
        { e with liveness := .unheard, waitingTimer := .stopped, slot := .empty, pendingList := [] }) ∧
      t.localConverter = { s.localConverter with
        running := .disabled, settleTimer := .stopped, scanTimer := .stopped, scanning := false } ∧
      (∀ n, t.point n = (s.point n).map (fun p => if p.quality = .none then p else { p with quality := .stale })) ∧
      (∀ h, t.holder h = (s.holder h).map (fun r =>
        { r with quality := .stale, blind := r.blind || r.inReckoning })) ∧
      (∀ h, t.routing h = (s.routing h).map (fun q => { q with inHand := none })) ∧
      ∀ d, t.district d = (s.district d).map (fun r => { r with stepTimer := .stopped }))

/-- A port when a restart is complete: both timers start. -/
def Sys2Proof.Claims.portStarted (separation : Nat) (q : PortState) : PortState :=
  { q with frameEnd := .running 4, separation := .running separation }

/-- R13: the Local Converter when a restart is complete. -/
def Sys2Proof.Claims.converterStarted (c : LocalConverter) : LocalConverter :=
  if c.enabled then
    { c with running := .settling, settleTimer := .running 2, scanTimer := .running c.scanPeriod, scanning := false }
  else c

/-- R42, R56: a holder's front entry handed over at the end of a restart; its station's slot then takes the head. -/
def Sys2Proof.Claims.closureResumed (s : State) (h : Nat) : State :=
  match s.holder h with
  | none => s
  | some r => headTaken r.valveStation (sequenceHanded h s)

/-- R120: a directory entry's waiting timer started. -/
def Sys2Proof.Claims.waitingStarted (e : Station) : Timer := if e.waitingTime = 0 then .stopped else .running e.waitingTime

/-- R174: RESTART_COMPLETE makes the unit READY, starts the port, waiting (R120), step (R78) and Local Converter (R13) timers,
and puts the START entry at the head of the backlog with the owed alarm entries behind it (R166); then the front entry of
each closure sequence is handed over, in ascending holder number (R42; that the entries come first is log 13). Nothing else
changes. Of the model's choosing or reading in the hand-over: the cause of a close is that with which its entry was added
(log 15), the close waits for ORDER_SEND (log 4), and, where a failed close takes an outlet from the supply, a SET is told by
its code (log 20) and a supply state acts before the clamp (log 28). -/
def Obligations.RestartCompletes : Prop :=
  ∀ (s : State) (cause : RestartCause), s.unit = .restarting cause →
    ∃ w t, exec .restartComplete s = .next t ∧
      (∀ d, ({ s with districts := w } : State).district d
        = (s.district d).map (fun r => { r with stepTimer := .running r.stepPeriod })) ∧
      t = [1, 2, 3, 4, 5, 6, 7, 8].foldl closureResumed { s with
        unit := .ready
        line := { s.line with
          portO := portStarted 5 s.line.portO, portN := portStarted s.settings.guardN s.line.portN
          portS := portStarted s.settings.guardS s.line.portS }
        localConverter := converterStarted s.localConverter
        directory := s.directory.map (fun e => { e with waitingTimer := waitingStarted e })
        districts := w
        backlog := ⟨.full (.start cause), none⟩
          :: (s.alarms.filter (·.reportOwed)).map (fun r => ⟨.reference (.alarm r.key), none⟩) } ∧
      t.unit = .ready ∧ t.backlog.head? = some ⟨.full (.start cause), none⟩ ∧
      (∀ a, (t.station a).map (·.waitingTimer) = (s.station a).map waitingStarted) ∧
      ∀ d, (t.district d).map (·.stepTimer) = (s.district d).map (fun r => .running r.stepPeriod)

/-! ### Line ports (R139 to R145) -/

/-- R143: a figure counts up and stays at its limit. -/
def Sys2Proof.Claims.counted (n : Nat) : Nat := if n < 4294967295 then n + 1 else n

/-- R152: whether a taking charged to a port may take a general buffer. -/
def Sys2Proof.Claims.generalFor (p : Port) (s : State) : Bool :=
  decide (0 < s.line.freeGeneral ∧ (s.settings.poolMode = .partitioned → s.line.charge p < 28))

/-- R140: an octet that finds the receiver IDLE takes a general buffer, charged to its port, and begins a frame; with none
it begins a frame to be dropped. The holding test follows the taking at once (R158; log 18). -/
def Obligations.ReceptionStarts : Prop :=
  ∀ (p : Port) (o : Byte) (faulty : Bool) (s : State), isRestarting s = false → (s.port p).receiver = .idle →
    exec (.receptionStart p o faulty) s = .next
      (if generalFor p s then
        holdingTest
          ({ s with line :=
              { s.line with freeGeneral := s.line.freeGeneral - 1 }.setCharge p (s.line.charge p + 1) }.modPort p
            (fun q => { q with receiver := .receiving ⟨.general, some p⟩ [o] 1 faulty, frameEnd := .running 4 }))
      else s.modPort p (fun q => { q with receiver := .discarding true, frameEnd := .running 4 }))

/-- R140: a further octet is counted, and stored while the frame holds fewer than 64; a frame being dropped ignores it. The
frame-end timer restarts. -/
def Obligations.FurtherOctetIsTaken : Prop :=
  ∀ (p : Port) (o : Byte) (faulty : Bool) (s : State), isRestarting s = false →
    (∀ b octets count mark, (s.port p).receiver = .receiving b octets count mark →
      exec (.octetArrives p o faulty) s = .next (s.modPort p (fun q =>
        { q with
          receiver := .receiving b (if count < 64 then octets ++ [o] else octets) (count + 1) (mark || faulty)
          frameEnd := .running 4 }))) ∧
    ∀ mark, (s.port p).receiver = .discarding mark →
      exec (.octetArrives p o faulty) s = .next (s.modPort p (fun q =>
        { q with receiver := .discarding mark, frameEnd := .running 4 }))

/-- R142: the kind is valid on the port. -/
def Sys2Proof.Claims.kindFits (p : Port) (kind : Nat) : Prop :=
  match p with
  | .o => kind = 2 ∨ kind = 4
  | _ => kind = 1 ∨ kind = 3

/-- R141, R142: source and destination are valid on the port. -/
def Sys2Proof.Claims.addressesFit (p : Port) (source destination : Nat) : Prop :=
  match p with
  | .o => source = 0 ∧ (1 ≤ destination ∧ destination ≤ 240 ∨ destination = 255)
  | _ => (1 ≤ source ∧ source ≤ 239) ∧ destination ≤ 240

/-- R141: the octet count is in range and is the body length plus 6. -/
def Sys2Proof.Claims.lengthFits (octets : List Byte) (count : Nat) : Prop :=
  6 ≤ count ∧ count ≤ 64 ∧ octetAt octets 3 ≤ 58 ∧ count = octetAt octets 3 + 6

/-- R148: one bit through the register of generator x¹⁶ + x¹² + x⁵ + 1: the bit shifted out, added to the one that comes in,
says whether x¹² + x⁵ + 1 is added. -/
def Sys2Proof.Claims.bitChecked (register bit : Nat) : Nat :=
  let shifted := 2 * register % 65536
  if (register / 32768 + bit) % 2 = 1 then shifted ^^^ (2 ^ 12 + 2 ^ 5 + 1) else shifted

/-- R148: the bits of octets in order, the high bit of each first. -/
def Sys2Proof.Claims.bitsOf (octets : List Byte) : List Nat :=
  octets.flatMap (fun o => [7, 6, 5, 4, 3, 2, 1, 0].map (fun i => o.toNat / 2 ^ i % 2))

/-- R148: the check: the register starts at 65,535 and is not inverted at the end. -/
def Sys2Proof.Claims.checkOf (octets : List Byte) : Nat := (bitsOf octets).foldl bitChecked 65535

/-- R141, R148: no faulty octet, and the check of all but the last two octets is those two, high octet first. -/
def Sys2Proof.Claims.checkFits (octets : List Byte) (mark : Bool) : Prop :=
  let n := octets.length
  mark = false ∧ checkOf (octets.take (n - 2)) = field octets (n - 2) 2

/-- R140 to R143: the frame-end timer ends the frame. A frame being dropped is counted if marked. A frame held is bad at
the first check that fails, and its buffer is freed; a good telegram stands in reception for the Relay Unit, and port O's
MANAGE telegrams without a request step are taken at once (log 3). R148: a telegram that the part forms carries the check of
its header and body, formed in the same way. -/
def Obligations.FrameEnds : Prop :=
  (∀ (d a k : Nat) (body : List Byte),
    let covered := octet d :: octet a :: octet k :: octet body.length :: body
    frame d a k body = covered ++ [octet (checkOf covered / 256), octet (checkOf covered)]) ∧
  ∀ (p : Port) (s : State), isRestarting s = false →
    (∀ mark, (s.port p).receiver = .discarding mark →
      exec (.frameEnd p) s = .next (s.modPort p (fun q =>
        { q with receiver := .idle, frameEnd := .stopped, dropped := if mark then counted q.dropped else q.dropped }))) ∧
    ∀ b octets count mark, (s.port p).receiver = .receiving b octets count mark →
      let bad := fun fault => exec (.frameEnd p) s = .next (freeBuffer b (s.modPort p (fun q =>
        { q with receiver := .idle, frameEnd := .stopped, bad := counted q.bad, lastFault := fault })))
      (¬ lengthFits octets count → bad .badLength) ∧
      (lengthFits octets count → ¬ checkFits octets mark → bad .badCheck) ∧
      (lengthFits octets count → checkFits octets mark → ¬ kindFits p (octetAt octets 2) → bad .badKind) ∧
      (lengthFits octets count → checkFits octets mark → kindFits p (octetAt octets 2) →
        ¬ addressesFit p (octetAt octets 1) (octetAt octets 0) → bad .badAddress) ∧
      (lengthFits octets count → checkFits octets mark → kindFits p (octetAt octets 2) →
        addressesFit p (octetAt octets 1) (octetAt octets 0) →
        let t := s.modPort p (fun q => { q with receiver := .idle, frameEnd := .stopped, good := counted q.good })
        let t := { t with line := { t.line with received := t.line.received ++ [⟨p, b, octets⟩] } }
        exec (.frameEnd p) s = .next (if p = .o then drain t else t))

/-- R157: the number a ratio stands for. -/
def Sys2Proof.Claims.ratioNumber : Ratio → Option Nat
  | .strict => none
  | .eight => some 8
  | .four => some 4
  | .two => some 2

/-- R157: the ratio of a port. -/
def Sys2Proof.Claims.ratioAt (p : Port) (x : Settings) : Ratio :=
  match p with
  | .o => x.ratioO
  | .n => x.ratioN
  | .s => x.ratioS

/-- R157: what the choice makes of a port. -/
def Sys2Proof.Claims.chosen (ratio : Ratio) (q : PortState) : PortState :=
  match q.urgent, q.routine with
  | [], [] => { q with transmitter := .idle, separation := .stopped }
  | [], t :: rest => { q with transmitter := .sending t, separation := .stopped, routine := rest, runCount := 0 }
  | t :: rest, [] => { q with transmitter := .sending t, separation := .stopped, urgent := rest, runCount := 0 }
  | u :: us, r :: rs =>
    match ratioNumber ratio with
    | none => { q with transmitter := .sending u, separation := .stopped, urgent := us }
    | some n =>
      if q.runCount < n then
        { q with transmitter := .sending u, separation := .stopped, urgent := us, runCount := q.runCount + 1 }
      else { q with transmitter := .sending r, separation := .stopped, routine := rs, runCount := 0 }

/-- R144, R145, R157: an IDLE transmitter with a telegram waiting, and one whose separation expires, make the choice of
the ratio service; nothing else changes. That the start of an IDLE transmitter is a step of its own is log 6. -/
def Obligations.TransmitterChooses : Prop :=
  ∀ (p : Port) (s : State), isRestarting s = false →
    ((s.port p).transmitter = .idle → ¬ ((s.port p).urgent = [] ∧ (s.port p).routine = []) →
      exec (.transmitStart p) s = .next (s.modPort p (chosen (ratioAt p s.settings)))) ∧
    ((s.port p).transmitter = .separating →
      exec (.separationExpiry p) s = .next (s.modPort p (chosen (ratioAt p s.settings))))

/-- R145: the separation a port starts. -/
def Sys2Proof.Claims.separationTime (p : Port) (x : Settings) : Nat :=
  match p with
  | .o => 5
  | .n => x.guardN
  | .s => x.guardS

/-- R144: a transmission complete: the sent figure, the end of an order's copy (R67), the freeing, the separation, in that
order. After the ANSWER of an accepted RESET the pending restart begins as at its timer's expiry (R173); that the actions of R144
come first is the model's choice (log 46). -/
def Obligations.TransmissionCompletes : Prop :=
  ∀ (p : Port) (s : State) (t : Telegram), isRestarting s = false → (s.port p).transmitter = .sending t →
    let w := s.modPort p (fun q => { q with sent := counted q.sent })
    let after := fun w : State => (freeBuffer t.buffer w).modPort p (fun q =>
      { q with transmitter := .separating, separation := .running (separationTime p s.settings) })
    (t.tag = .plain → exec (.transmissionComplete p) s = .next (after w)) ∧
    (∀ a send, t.tag = .orderCopy a send →
      exec (.transmissionComplete p) s = .next (after (w.modStation a (fun e =>
        match e.slot with
        | .onLine o n copies =>
          if n ≠ send then e
          else if 2 ≤ copies then { e with slot := .onLine o n (copies - 1) }
          else { e with slot := .awaitingReply o e.replyTime }
        | _ => e)))) ∧
    (t.tag = .resetAnswer →
      exec (.transmissionComplete p) s =
        match s.unit with
        | .resetPending _ => exec .resetTimerExpiry (after w)
        | _ => .next (after w))

/-! ### The pool (R151 to R161) -/

/-- R151: one copy of a HOLD or GO for a branch: a general buffer if one is free, otherwise a reserve buffer, otherwise the
copy is not sent. -/
def Sys2Proof.Claims.copySent (kind : Nat) (body : List Byte) (p : Port) (s : State) : State :=
  if 0 < s.line.freeGeneral then
    enqueue p true ⟨⟨.general, none⟩, frame 255 240 kind body, .plain⟩
      { s with line := { s.line with freeGeneral := s.line.freeGeneral - 1 } }
  else if 0 < s.line.freeReserve then
    enqueue p true ⟨⟨.reserve, none⟩, frame 255 240 kind body, .plain⟩
      { s with line := { s.line with freeReserve := s.line.freeReserve - 1 } }
  else s

/-- R159: HOLD on N and S, and the repeat timer from the duration carried. -/
def Sys2Proof.Claims.holdSent (s : State) : State :=
  let d := s.settings.holdDuration
  let t := copySent 7 [octet d] .s (copySent 7 [octet d] .n s)
  { t with line := { t.line with repeatTimer := .running (max 1 (d / 2)) } }

/-- R159: HOLDING entered. -/
def Sys2Proof.Claims.holdEntered (s : State) : State := holdSent { s with line := { s.line with holding := .holding } }

/-- R66: the copies a send of a station needs, by its learned branch. -/
def Sys2Proof.Claims.copiesNeeded (e : Station) : Nat := if e.branch = none then 2 else 1

/-- R154, R158 to R161: a freeing: the buffer becomes free, the claims are offered from head to tail (R153), each buffer
that a met send gives back is freed by itself (log 19), and the holding test is made; what that test does on entering and
on leaving HOLDING (of its two copies N's is served first, log 36); and the repetition at the repeat timer's expiry, whose
takings the test follows (log 18). A waiting send's claim is met exactly when its copies can all take buffers, and a
report's when a buffer of its class is free. A telegram that joins a queue goes to its tail (R156). That a met send's slot is
written before its given-back buffers are freed is log 43; values that no form holds are free (log 10). -/
def Obligations.PoolFreesAndHolds : Prop :=
  (∀ (p : Port) (urgent : Bool) (t : Telegram) (s : State), enqueue p urgent t s = s.modPort p (fun q =>
    { q with
      urgent := if urgent then q.urgent ++ [t] else q.urgent
      routine := if urgent then q.routine else q.routine ++ [t] })) ∧
  (∀ (b : Buffer) (s : State), s.claims = [] → freeBuffer b s = holdingTest (released b s)) ∧
  (∀ (b : Buffer) (s : State), freeBuffer b s = freed (s.claims.length + 1) b s) ∧
  (∀ (a : Nat) (s : State) (e : Station) (o : Order), s.station a = some e → e.slot = .bufferWait o →
    (offerClaim (.send a) s = none ↔ s.line.freeGeneral + s.line.freeReserve < copiesNeeded e) ∧
    ∀ given t, offerClaim (.send a) s = some (given, t) → Claim.send a ∉ t.claims ∧
      t.line.freeGeneral + t.line.freeReserve + copiesNeeded e = s.line.freeGeneral + s.line.freeReserve ∧
      (t.station a).map (·.slot) = some
        (if given.length = copiesNeeded e then .awaitingReply { o with sends := o.sends + 1 } e.replyTime
         else .onLine { o with sends := o.sends + 1 } s.serial (copiesNeeded e - given.length))) ∧
  (∀ (s : State) (e : Entry) (rest : List Entry), s.backlog = e :: rest →
    let r := reportOf s e.form
    (e.held.elim r.parts (·.remaining)) ≠ [] →
    (offerClaim .backlog s = none ↔ s.line.freeGeneral = 0 ∧ (r.urgent = true → s.line.freeReserve = 0))) ∧
  (∀ s : State, s.line.holding = .notHolding →
    holdingTest s = if s.line.freeGeneral ≤ s.settings.holdMark then holdEntered s else s) ∧
  (∀ s : State, s.line.holding = .holding →
    let t := copySent 8 [] .s (copySent 8 [] .n
      { s with line := { s.line with holding := .notHolding, repeatTimer := .stopped } })
    holdingTest s =
      if s.line.freeGeneral < s.settings.goMark then s
      else if t.line.freeGeneral ≤ t.settings.holdMark then holdEntered t
      else t) ∧
  ∀ (s : State) (d : Nat), isRestarting s = false → s.line.holding = .holding → s.line.repeatTimer = .running d →
    exec .repeatTimerExpiry s = .next (holdingTest (holdSent s))

/-! ### The Relay Unit (R122 to R137) -/

/-- R137: the enable of a field telegram's direction. -/
def Sys2Proof.Claims.mayCross (b : Branch) (p : Port) (x : Enables) : Bool :=
  match b, p with
  | .n, .o => x.nToOffice
  | .s, .o => x.sToOffice
  | .n, _ => x.nToS
  | .s, _ => x.sToN

/-- R134: the branch that is known for a destination. -/
def Sys2Proof.Claims.branchKnown (a : Nat) (s : State) : Option Branch :=
  match s.station a with
  | some e => e.branch
  | none => (s.stranger a).map (·.branch)

/-- R134, R137: a field telegram resolved: to the office as `rewritten`, across to the other branch as it arrived, or its
buffer freed. -/
def Sys2Proof.Claims.resolved (r : Received) (b : Branch) (urgent : Bool) (rewritten : Option (List Byte)) (s : State) : State :=
  let d := destinationOf r.octets
  if d = 0 then
    match rewritten with
    | some octets =>
      if mayCross b .o s.settings.enables then enqueue .o urgent ⟨r.buffer, octets, .plain⟩ s else freeBuffer r.buffer s
    | none => freeBuffer r.buffer s
  else if d = 240 ∨ branchKnown d s = some b then freeBuffer r.buffer s
  else if mayCross b b.other.port s.settings.enables then
    enqueue b.other.port urgent ⟨r.buffer, r.octets, .plain⟩ s
  else freeBuffer r.buffer s

/-- R133: a SAMPLE's source is heard, its entries are converted where its body is well formed (R3), and it goes on by its
destination, ROUTINE, rewritten for the office by the forward modes of its points (R9 to R11). -/
def Obligations.SampleIsPassed : Prop :=
  ∀ (p : Port) (b : Branch) (s u : State) (r : Received), isRestarting s = false → fieldBranch p = some b →
    takeReceived p s = some (r, u) → kindOf r.octets = 1 →
    let a := sourceOf r.octets
    let v := sampleTaken a (bodyOf r.octets) (hear a b u)
    exec (.sample p) s = .next (resolved r b false (officeSample r.octets v) v)

/-- R70: a REPLY body matches an order. -/
def Sys2Proof.Claims.bodyMatches (body : List Byte) (o : Order) : Prop :=
  3 ≤ body.length ∧ o.code = some (octetAt body 0) ∧ o.operand = some (field body 1 2)

/-- R133, R45, R46, R70 to R73: a REPLY's source is heard and its valve states are taken; a REPLY that matches the order in
its source's slot completes it, the order ending by its origin (R57, R71, R72, R83), and is forwarded to the office, for an
office order, or consumed; any other goes on by its destination, URGENT. Of the model's choosing: the order of CLOSE-FAILED
clearings (log 34), of R83 and R72 (log 35), of the completion and the freeing (log 41), a present order code of 0
(log 37), SET and RELEASE told by the code alone (log 20), which CLOSE is in hand (log 27), the cause of a CLOSE, which is
that with which its entry was added (log 15), a head taken that waits for ORDER_SEND (log 4), and a supply state that acts
before the clamp (log 28). -/
def Obligations.ReplyIsPassed : Prop :=
  ∀ (p : Port) (b : Branch) (s u : State) (r : Received), isRestarting s = false → fieldBranch p = some b →
    takeReceived p s = some (r, u) → kindOf r.octets = 3 →
    let a := sourceOf r.octets
    let body := bodyOf r.octets
    let h := hear a b u
    let v := match h.holderOfStation a with
      | some k => valveStatesTaken k body h
      | none => h
    (∀ e o, v.station a = some e → e.slot.order? = some o → bodyMatches body o →
      let w := orderCompleted a o body v
      exec (.reply p) s = .next
        (if o.fromOffice ∧ mayCross b .o w.settings.enables then enqueue .o true ⟨r.buffer, r.octets, .plain⟩ w
         else freeBuffer r.buffer w)) ∧
    ((∀ e o, v.station a = some e → e.slot.order? = some o → ¬ bodyMatches body o) →
      exec (.reply p) s = .next (resolved r b true (some r.octets) v))

/-- R137: the enable of an office telegram's direction. -/
def Sys2Proof.Claims.officeMaySend (p : Port) (x : Enables) : Bool :=
  match p with
  | .o => true
  | .n => x.officeToN
  | .s => x.officeToS

/-- R136: an office telegram for both branches. The copy to N keeps the buffer; the copy to S takes a further general
buffer charged to port O, followed by the holding test, or is dropped and counted. That the copy to N is queued before the
taking and the copy to S joins after the test is log 18. -/
def Sys2Proof.Claims.sentToBoth (r : Received) (s : State) : State :=
  let own := fun p => enqueue p true ⟨r.buffer, r.octets, .plain⟩ s
  match officeMaySend .n s.settings.enables, officeMaySend .s s.settings.enables with
  | false, false => freeBuffer r.buffer s
  | true, false => own .n
  | false, true => own .s
  | true, true =>
    let t := own .n
    if generalFor .o t then
      enqueue .s true ⟨⟨.general, some .o⟩, r.octets, .plain⟩ (holdingTest
        { t with line :=
          { t.line with freeGeneral := t.line.freeGeneral - 1 }.setCharge .o (t.line.charge .o + 1) })
    else t.modPort .o (fun q => { q with dropped := counted q.dropped })

/-- R135: an office COMMAND by its destination: discarded, sent to both branches, refused by a check, held by the Order
Unit at the tail of the station's list, from where an EMPTY slot takes the head, or refused BUSY (R63), or sent to a
stranger's branch. Waiting MANAGE telegrams that no request step takes follow (log 3). That the order taken waits in
BUFFER-WAIT for ORDER_SEND is log 4, and the order of two copies' queueing and the holding test log 18, both the model's
choices. -/
def Obligations.OfficeCommandIsResolved : Prop :=
  ∀ (s u : State) (r : Received), isRestarting s = false → takeReceived .o s = some (r, u) → kindOf r.octets = 2 →
    let a := destinationOf r.octets
    let body := bodyOf r.octets
    let refused := fun reason => oweRefusal a body reason (freeBuffer r.buffer u)
    exec .officeCommand s = .next (drain
      (if a = 240 then freeBuffer r.buffer u
       else if a = 255 then sentToBoth r u
       else
        match commandRefusal a body u, u.station a, u.stranger a with
        | some reason, _, _ => refused reason
        | none, some e, _ =>
          if e.pendingList.length < 4 then freeBuffer r.buffer (officePlaced a body u) else refused .busy
        | none, none, some g =>
          if officeMaySend g.branch.port u.settings.enables then
            enqueue g.branch.port true ⟨r.buffer, r.octets, .plain⟩ u
          else freeBuffer r.buffer u
        | none, none, none => sentToBoth r u))

/-- R48: why an OPEN of a valve is refused. -/
def Sys2Proof.Claims.whyNotOpen (r : Holder) (v : Nat) : Option RefusalReason :=
  if r.inReckoning = false then some .notReckoned
  else if r.blind = true then some .blind
  else if v = 0 then if r.condition = .top then some .atTop else none
  else if r.permitted.has v = false then some .notPermitted
  else if r.condition = .low ∨ r.condition = .landed then some .atLow
  else none

/-- R82: why a SET or RELEASE is refused. -/
def Sys2Proof.Claims.whyNotSet (r : District) (code operand : Nat) : Option RefusalReason :=
  if code = 3 then if r.mode = .auto then some .notAllowed else if r.maximum < operand then some .outOfRange else none
  else if code = 4 ∧ r.mode = .auto then some .notAllowed
  else none

/-- R47, R48, R82, R135: the checks of an office COMMAND. Only a body of three octets is refused: an OPEN of a valve 0 to 6
of a valve station by R48, a SET or RELEASE of a governor station by R82; the valve check comes first. -/
def Obligations.OfficeOrdersAreChecked : Prop :=
  ∀ (a : Nat) (body : List Byte) (s : State),
    let code := octetAt body 0
    let operand := field body 1 2
    (body.length ≠ 3 → commandRefusal a body s = none) ∧
    (body.length = 3 →
      commandRefusal a body s =
        (((s.holderOfStation a).bind s.holder).bind (fun r =>
          if code = 1 ∧ operand ≤ 6 then whyNotOpen r operand else none)).or
        (((s.districtOfStation a).bind s.district).bind (fun r => whyNotSet r code operand)))

/-- R122, R123, R128: what hearing a station writes. A configured station learns its branch or migrates, which raises
STATION-MOVED, and is LIVE with its waiting timer restarted, STATION-SILENT being cleared for one that was SILENT or
UNHEARD; a stranger's entry moves to the tail of its list, which holds the eight heard last. -/
def Obligations.HearingWrites : Prop :=
  ∀ (a : Nat) (b : Branch) (s : State),
    (∀ e, s.station a = some e →
      let moved := e.branch = some b.other
      (hear a b s).station a = some { e with
        branch := some b, migrations := if moved then min 255 (e.migrations + 1) else e.migrations
        lastHeard := s.timeNow, liveness := .live
        waitingTimer := if e.waitingTime = 0 then e.waitingTimer else .running e.waitingTime } ∧
      (hear a b s).strangers = s.strangers ∧
      (¬ moved → e.liveness = .live → (hear a b s).alarms = s.alarms) ∧
      let w := s.modStation a (fun x => { x with
        branch := some b, migrations := if x.branch = some b.other then min 255 (x.migrations + 1) else x.migrations
        lastHeard := s.timeNow, liveness := .live
        waitingTimer := if x.waitingTime = 0 then x.waitingTimer else .running x.waitingTime })
      let w := if moved then raised .stationMoved a w else w
      hear a b s = if e.liveness = .live then w else cleared .stationSilent a w) ∧
    (s.station a = none →
      let count := (s.stranger a).elim 1 (fun e => min 65535 (e.telegrams + 1))
      let others := s.strangers.filter (fun e => e.address != a)
      let kept := if s.stranger a = none ∧ 8 ≤ s.strangers.length then others.drop 1 else others
      hear a b s = { s with strangers := kept ++ [⟨a, b, count, s.timeNow, .running 600⟩] })

/-- R125, R129: a waiting timer's expiry makes its station SILENT, raises STATION-SILENT and makes the station's points
STALE (R8): each point of the station that is not NONE ends STALE with its value kept, and each that changed is handed on;
an aging timer's expiry removes its stranger, and nothing else. -/
def Obligations.RelayTimersExpire : Prop :=
  (∀ (a d : Nat) (s : State) (e : Station), isRestarting s = false → s.station a = some e →
    e.waitingTimer = .running d →
    let w := pointsStale a (raised .stationSilent a
      (s.modStation a (fun e => { e with waitingTimer := .stopped, liveness := .silent })))
    exec (.waitingTimerExpiry a) s = .next w ∧
    ∀ n, w.point n = (s.point n).map (fun p =>
      if p.station = a ∧ p.quality ≠ .none then { p with quality := .stale } else p)) ∧
  ∀ (a : Nat) (s : State) (e : Stranger), isRestarting s = false → s.stranger a = some e →
    exec (.agingTimerExpiry a) s = .next { s with strangers := s.strangers.filter (fun e => e.address != a) }

/-! ### The Point Converter and the Local Converter (R4 to R15) -/

/-- R4: a raw value held between the raw limits. -/
def Sys2Proof.Claims.clamped (p : Point) (raw : Nat) : Nat :=
  if raw < p.rawMin then p.rawMin else if p.rawMax < raw then p.rawMax else raw

/-- R4, R5: the engineering value of a raw value. -/
def Sys2Proof.Claims.engineeringOf (p : Point) (raw : Nat) : Int :=
  if p.kind = .level then p.lo + rounded (clamped p raw * (p.hi - p.lo).toNat) 65535 else raw

/-- R6: the quality an entry gives. -/
def Sys2Proof.Claims.qualityOf (p : Point) (e : RawEntry) : Quality :=
  if 2 ≤ e.quality then .failed
  else if e.quality = 1 ∨ p.kind = .level ∧ clamped p e.value ≠ e.value then .suspect
  else .good

/-- R4 to R7: an entry of a configured key gives its point a quality and the present time, and unless it is FAILED its raw
and engineering values; the update is handed to the consumers, and an entry of any other key changes nothing. A hand-over
acts on the holders, then on the meters in ascending number, then on the districts (that order of units is log 14). At a
meter a GOOD COUNT is counted against the last (R108 to R111; a delta of 0 sets its flags too, log 39), a COUNT point gone
STALE or NONE loses its count (R107), and a GOOD PERIOD forms the rate (R112, R114); at a district a GOOD tell-tale lowers the
minimum of the open hour (R89, R114). What a hand-over does at a holder is stated with the reckoning. -/
def Obligations.EntryConverts : Prop :=
  (∀ (source : Nat) (s : State) (e : RawEntry),
    (findPoint source e.channel s = none → takeEntry source s e = s) ∧
    ∀ n p, findPoint source e.channel s = some n → s.point n = some p →
      let q := qualityOf p e
      let taken : Point :=
        if q = .failed then { p with quality := q, updated := s.timeNow }
        else { p with
          lastRaw := some e.value, value := some (engineeringOf p e.value), quality := q, updated := s.timeNow }
      takeEntry source s e = handUpdate ⟨n, p.kind, taken.value, q, true⟩ (s.putPoint n (some taken))) ∧
  ∀ (u : PointUpdate) (s : State),
    handUpdate u s = [1, 2, 3, 4, 5, 6].foldl (tellTaleTaken u) ([1, 2, 3, 4, 5, 6, 7, 8].foldl (meterUpdated u)
      ([1, 2, 3, 4, 5, 6, 7, 8].foldl (holderUpdate u) s))

/-- R14, R15: the settle timer's expiry makes the converter READY; the scan timer's restarts it and begins a scan; a scan's
completion converts a local sample and queues what is kept of it for the office, ROUTINE, where a general buffer is free.
A code that the resolution cannot give does not arise (log 22); the holding test comes before the sample joins its queue
(log 18). -/
def Obligations.LocalConverterRuns : Prop :=
  ∀ (s : State) (d : Nat), isRestarting s = false →
    (s.localConverter.settleTimer = .running d →
      exec .settleTimerExpiry s = .next
        { s with localConverter := { s.localConverter with running := .ready, settleTimer := .stopped } }) ∧
    (s.localConverter.scanTimer = .running d →
      exec .scanTimerExpiry s = .next
        { s with localConverter :=
            { s.localConverter with scanTimer := .running s.localConverter.scanPeriod, scanning := true } }) ∧
    ∀ codes : Fin 4 → Nat, s.localConverter.scanning = true → (∀ i, codes i < 2 ^ s.localConverter.resolution) →
      let quality := if s.localConverter.running = .settling then 1 else 0
      let raw := fun i => codes i * (65536 / 2 ^ s.localConverter.resolution)
      let sample := frame 0 240 1 (octet 4 :: (List.finRange 4).flatMap (fun i =>
        octet i.val :: octet quality :: octetsOf 2 (raw i)))
      let v := sampleTaken 240 (bodyOf sample)
        { s with localConverter := { s.localConverter with scanning := false } }
      exec (.scanComplete (codes 0) (codes 1) (codes 2) (codes 3)) s = .next
        (match officeSample sample v with
          | none => v
          | some octets =>
            if 0 < v.line.freeGeneral then
              enqueue .o false ⟨⟨.general, none⟩, octets, .plain⟩
                (holdingTest { v with line := { v.line with freeGeneral := v.line.freeGeneral - 1 } })
            else v)

/-! ### The Order Unit and the Report Backlog (R66 to R69, R163 to R167) -/

/-- R66, R67: a send that is due takes its buffers, one for each port its branch calls for, and is made, or waits with a
claim. A send made counts; its slot waits for the end of its queued copies or, with none queued, for the reply. On a known
branch whose direction is open its one copy is queued, in a general buffer if one is free. Of the model's choosing: a send
that is due waits in BUFFER-WAIT without a claim until ORDER_SEND, where R66 starts it at once (log 4), and the holding test
comes before the copy joins its queue (log 18). -/
def Obligations.OrderSendActs : Prop :=
  ∀ (a : Nat) (s : State) (e : Station) (o : Order) (rest : List Order), isRestarting s = false →
    s.station a = some e →
    (e.slot = .bufferWait o ∧ Claim.send a ∉ s.claims ∧ rest = e.pendingList ∨
      e.slot = .empty ∧ e.pendingList = o :: rest) →
    let ports := match e.branch with
      | some b => [b.port]
      | none => [.n, .s]
    let enabled := fun p => !o.fromOffice || officeMaySend p s.settings.enables
    let k := (ports.filter enabled).length
    let sent := { o with sends := o.sends + 1 }
    let t := headTaken a s
    (s.line.freeGeneral + s.line.freeReserve < ports.length →
      exec (.orderSend a) s = .next { t with claims := t.claims ++ [.send a] }) ∧
    (ports.length ≤ s.line.freeGeneral + s.line.freeReserve →
      ∃ v x, exec (.orderSend a) s = .next v ∧ v.station a = some x ∧ x.pendingList = rest ∧
        x.slot = if k = 0 then .awaitingReply sent e.replyTime else .onLine sent s.serial k) ∧
    ∀ p, ports = [p] → enabled p = true → 0 < s.line.freeGeneral →
      exec (.orderSend a) s = .next
        ((enqueue p true
            ⟨⟨.general, none⟩, frame o.station (if o.fromOffice then 0 else 240) 2 o.body, .orderCopy o.station s.serial⟩
            { holdingTest { t with line := { t.line with freeGeneral := t.line.freeGeneral - 1 } } with
              serial := s.serial + 1 }).modStation a
          (fun x => { x with slot := .onLine sent s.serial 1 }))

/-- R68, R69: the reply timer's expiry starts a repeat send while fewer than five are made; otherwise the slot empties, the
order fails by its origin, and the head of the pending list is taken. Both sends seek their buffers at ORDER_SEND, not in
this step (log 4). A failed automatic CLOSE goes to its holder's closure sequence. What moves that sequence, in every state:
a cause withdraws the OPENs it names and adds its closures as one whole (R51 to R55), the front entry is handed over (R56),
and the ending of the close in hand is judged (R57). Of the model's reading or choosing: an entry of the sequence keeps the
cause that added it, which its CLOSE reports in the SUPERSEDED of an office order that it displaces (log 15; R54 gives an
entry no cause); BLIND and the outlets (log 33); the CLOSE in hand (log 27); and, where a failed close takes an outlet from
the supply, a SET told by its code (log 20) and a supply state that acts before the clamp (log 28). -/
def Obligations.ReplyTimerExpires : Prop :=
  (∀ (a d : Nat) (s : State) (e : Station) (o : Order), isRestarting s = false → s.station a = some e →
    e.slot = .awaitingReply o d →
    let w := slotEmptied a s
    (o.sends < 5 →
      exec (.replyTimerExpiry a) s = .next (s.modStation a (fun x => { x with slot := .bufferWait o }))) ∧
    (5 ≤ o.sends → exec (.replyTimerExpiry a) s = .next (headTaken a
      (match o.origin with
        | .office => oweFull (.refusal o.station o.code o.operand .noReply) w
        | .interlock =>
          match w.holderOfStation o.station with
          | none => w
          | some h => closeEnding h o false w
        | .scheduler k =>
          let v := raised .orderFailed k w
          match w.district k with
          | none => v
          | some r => if o.code = some 3 ∧ r.governor = o.station then v.putDistrict k { r with setFailed := true } else v)))) ∧
  (∀ (h : Nat) (cause : SupersessionCause) (s : State), interlockCause h cause s = causeTaken h cause s) ∧
  (∀ (h : Nat) (s : State), handOver h s = sequenceHanded h s) ∧
  ∀ (h : Nat) (o : Order) (done : Bool) (s : State), closeEnded h o done true s = closeEnding h o done s

/-- R167, R168: with no claim of the backlog waiting, REPORT_SEND sends part after part, each content taken with its first
part, until the backlog is empty or its head waits with a claim (that one step goes on so far is log 5; 193 turns are more
than the parts of 64 entries of three); a claim that a freeing meets goes on in the same way. A single entry of one part takes
a general buffer, or for an URGENT report a reserve one, joins its queue on port O, and leaves the backlog. Of a ROUTINE
entry with more parts, as a DAY-CLOSE, and one general buffer free, the next part goes, and the entry stays the head,
holding the rest, with the claim. The holding test comes before the part joins its queue (log 18). What no form
holds, and a flag set that is absent, is free (log 10). -/
def Obligations.ReportSendActs : Prop :=
  (∀ (s : State) (form : EntryForm), reportContent s form = reportOf s form) ∧
  (∀ s : State, offerClaim .backlog s = (partSent false s).map (fun t =>
    ([], reportsSent false 193 { t with claims := t.claims.filter (· != .backlog) }))) ∧
  ∀ s : State, isRestarting s = false → s.backlog ≠ [] → Claim.backlog ∉ s.claims →
    exec .reportSend s = .next (reportsSent true 193 s) ∧
    (RecordsConsistent s → ∃ t, exec .reportSend s = .next t ∧ (t.backlog = [] ∨ Claim.backlog ∈ t.claims)) ∧
    (∀ form content, s.backlog = [⟨form, none⟩] → (reportOf s form).parts = [content] →
      let r := reportOf s form
      let waits := exec .reportSend s = .next { s with claims := s.claims ++ [.backlog] }
      let sends := fun (b : Buffer) (l : Line) =>
        let t := enqueue .o r.urgent ⟨b, frame 0 240 6 (octet r.kind :: octet 1 :: octet 1 :: content), .plain⟩
          (holdingTest { s with line := l })
        exec .reportSend s = .next { t with
          backlog := []
          alarms := t.alarms.map (fun q =>
            if form = .reference (.alarm q.key) then { q with reportOwed := false } else q) }
      if 0 < s.line.freeGeneral then
        sends ⟨.general, none⟩ { s.line with freeGeneral := s.line.freeGeneral - 1 }
      else if r.urgent ∧ 0 < s.line.freeReserve then
        sends ⟨.reserve, none⟩ { s.line with freeReserve := s.line.freeReserve - 1 }
      else waits) ∧
    ∀ (e : Entry) (rest : List Entry) (count : Nat) (part next : List Byte) (later : List (List Byte)),
      s.backlog = e :: rest → (reportOf s e.form).urgent = false → s.line.freeGeneral = 1 →
      e.held.getD ⟨(reportOf s e.form).parts.length, (reportOf s e.form).parts⟩ = ⟨count, part :: next :: later⟩ →
      let number := count - (later.length + 1)
      let body := octet (reportOf s e.form).kind :: octet number :: octet count :: part
      let t := enqueue .o false ⟨⟨.general, none⟩, frame 0 240 6 body, .plain⟩
        (holdingTest { s with line := { s.line with freeGeneral := 0 } })
      exec .reportSend s = .next { t with
        backlog := { e with held := some ⟨count, next :: later⟩ } :: rest, claims := s.claims ++ [.backlog] }

/-- R166: an ALARM report owed on a record of the list. -/
def Sys2Proof.Claims.alarmOwed (key : AlarmKey) (s : State) : State :=
  if (s.settings.reportEnables[key.kind.code - 1]?).getD false = true ∧
      EntryForm.reference (.alarm key) ∉ s.backlog.map (·.form) then
    if s.backlog.length < 64 then
      { s with
        backlog := s.backlog ++ [⟨.reference (.alarm key), none⟩]
        alarms := s.alarms.map (fun r => if r.key = key then { r with reportOwed := true } else r) }
    else { s with backlogOverflow := true }
  else s

/-- R166: a record gone from the Alarm List, an entry that refers to it turned full in its place. -/
def Sys2Proof.Claims.recordGone (r : Alarm) (s : State) : State :=
  { s with
    alarms := s.alarms.filter (fun q => q.key != r.key)
    backlog := s.backlog.map (fun e =>
      if e.form = .reference (.alarm r.key) then { e with form := .full (.removedAlarm r) } else e) }

/-- R163, R164: raising an alarm counts on the record held, or adds one, a full list of 32 first losing the
CLEARED-UNACKED record nearest its head, or, with none, setting the overflow flag and nothing else; clearing one leaves it
CLEARED-UNACKED while unacknowledged, and removes an acknowledged one. Each owes an ALARM report while the kind's report
enable is on, the removal as a full entry where no entry refers to the record (R166). A removal by clearing that leaves
fewer than 32 clears the overflow flag, and the eviction leaves it as it stands (log 12). R166: any other report owed joins
the tail of the backlog, unless one on the same record stands there, or sets the overflow flag of a full one. -/
def Obligations.AlarmsAreRaisedAndCleared : Prop :=
  (∀ (s : State),
    let added := fun form : EntryForm =>
      if s.backlog.length < 64 then { s with backlog := s.backlog ++ [⟨form, none⟩] } else { s with backlogOverflow := true }
    (∀ ref, oweReference ref s =
      if EntryForm.reference ref ∈ s.backlog.map (·.form) then s else added (.reference ref)) ∧
    (∀ report, oweFull report s = added (.full report)) ∧
    ∀ a body reason, oweRefusal a body reason s = added (.full (.refusal a (body.head?.map (·.toNat))
      (if 3 ≤ body.length then some (field body 1 2) else none) reason))) ∧
  ∀ (key : AlarmKey) (s : State),
    let fresh : Alarm := ⟨key, .active, 1, s.timeNow, s.timeNow, false, false⟩
    let enabled := (s.settings.reportEnables[key.kind.code - 1]?).getD false
    (∀ r, findAlarm key s = some r →
      raiseAlarm key s = alarmOwed key { s with alarms := s.alarms.map (fun q =>
        if q.key = key then
          { q with count := min 255 (q.count + 1), lastTime := s.timeNow, state := .active, acknowledged := false }
        else q) } ∧
      (r.state = .clearedUnacked → clearAlarm key s = s) ∧
      (r.state = .active → r.acknowledged = false →
        clearAlarm key s = alarmOwed key { s with alarms := s.alarms.map (fun q =>
          if q.key = key then { q with state := .clearedUnacked } else q) }) ∧
      (r.state = .active → r.acknowledged = true →
        let gone := recordGone r s
        let gone := { gone with alarmOverflow := s.alarmOverflow && decide (32 ≤ gone.alarms.length) }
        clearAlarm key s =
          if enabled = false ∨ EntryForm.reference (.alarm key) ∈ s.backlog.map (·.form) then gone
          else if s.backlog.length < 64 then { gone with backlog := gone.backlog ++ [⟨.full (.removedAlarm r), none⟩] }
          else { gone with backlogOverflow := true })) ∧
    (findAlarm key s = none →
      clearAlarm key s = s ∧
      (s.alarms.length < 32 → raiseAlarm key s = alarmOwed key { s with alarms := s.alarms ++ [fresh] }) ∧
      (32 ≤ s.alarms.length →
        (∀ old, s.alarms.find? (fun r => r.state == .clearedUnacked) = some old →
          let gone := recordGone old s
          raiseAlarm key s = alarmOwed key { gone with alarms := gone.alarms ++ [fresh] }) ∧
        ((∀ r ∈ s.alarms, r.state ≠ .clearedUnacked) → raiseAlarm key s = { s with alarmOverflow := true })))

/-! ### The Pressure Scheduler (R85 to R92) -/

/-- R85: a step boundary: the step timer restarts, a pending profile is promoted, and in AUTO the step is computed. -/
def Sys2Proof.Claims.boundary (d : Nat) (s : State) : State :=
  match s.district d with
  | none => s
  | some r =>
    let q := { r with stepTimer := .running r.stepPeriod }
    let q := if r.nextPending then
      { q with
        activeProfile := r.nextProfile, nextProfile := [], nextPending := false
        generation := (r.generation + 1) % 65536 }
      else q
    if r.mode = .auto then stepComputation d (s.putDistrict d q) else s.putDistrict d q

/-- R85: the step timer's expiry and STEP-NOW perform a step boundary; STEP-NOW is answered after it. -/
def Obligations.StepBoundaryIsPerformed : Prop :=
  (∀ (d n : Nat) (s : State) (r : District), isRestarting s = false → s.district d = some r →
    r.stepTimer = .running n → exec (.stepTimerExpiry d) s = .next (boundary d s)) ∧
  ∀ (f : List Byte) (r : Received) (s u : State), Requested 13 f r s u →
    let d := octetAt f 0
    let answer := fun result v => exec .stepNow s = .next (answered r 13 result [] v)
    if f.length ≠ 1 then answer .badFormat u
    else if d < 1 ∨ 6 < d then answer .outOfRange u
    else if u.district d = none then answer .unknownItem u
    else answer .accepted (boundary d u)

/-- R89: the correction a step forms. -/
def Sys2Proof.Claims.correctionOf (r : District) (s : State) : Nat :=
  match r.tellTalePoint with
  | none => 0
  | some n =>
    match (s.point n).bind (fun p => if p.quality = .good then p.value else none) with
    | none => r.correction
    | some v =>
      if v < r.tellTaleMinimum then
        min r.correctionCap (r.correction + ((r.tellTaleMinimum : Int) - v).toNat * r.gain / 100)
      else r.correction - r.decay

/-- R88: the load raise. -/
def Sys2Proof.Claims.raiseOf (d : Nat) (r : District) (s : State) : Nat :=
  let rate := match r.outletMeter.bind s.meter with
    | some m => if m.target = .outlet d then m.rate else 0
    | none => 0
  min r.raiseCap ((rate - r.kneeRate) * r.loadFactor / 1000)

/-- R92: the value the active setpoint slews to. -/
def Sys2Proof.Claims.slewedTo (r : District) (target : Nat) : Nat :=
  match r.active with
  | none => target
  | some v => if v < target then min target (v + r.slew) else if target < v then max target (v - r.slew) else target

/-- R87 to R93: a step writes the correction, the last target and the active setpoint of its district, and of that record
nothing else but the set-failed flag of a SET that cannot be placed (R65). In full: correction and last target are written,
DISTRICT-SHORT is judged unless the district is UNSUPPLIED (R91), the active setpoint is written, and the send is decided
(R93), its SET being placed by R64 (a waiting SET is told by its code, log 20; a head taken waits for ORDER_SEND, log 4). -/
def Obligations.StepComputes : Prop :=
  ∀ (d : Nat) (s : State) (r : District), s.district d = some r →
    let c := correctionOf r s
    let sum := profilePressure r.activeProfile (s.clock.timeOfDay / 60) + raiseOf d r s + c + r.fogRaise
    let bounded := max r.minimum (min r.maximum sum)
    let target := min bounded r.supplyLimit
    let active := min r.maximum (min r.supplyLimit (max (slewedTo r target) r.minimum))
    let w := s.putDistrict d { r with correction := c, lastTarget := some target }
    let judged :=
      if r.supplied = false then w
      else if r.supplyLimit < bounded ∧ r.supplyLimit < r.minimum then raised .districtShort d w
      else cleared .districtShort d w
    (∃ flag, (stepComputation d s).district d = some
      { r with correction := c, lastTarget := some target, active := some active, setFailed := flag }) ∧
    stepComputation d s = sendDecided d (activeWritten d active judged)

/-- R87: the profile pressure of an active profile at the current minute, with the day wrapping before the first
breakpoint and from the last. -/
def Obligations.ProfilePressureFollowsBreakpoints : Prop :=
  ∀ (r : District) (s : State), s.clock.timeOfDay ≤ 86399 →
    let profile := r.activeProfile
    let m := s.clock.timeOfDay / 60
    (profile.map (·.minute)).Pairwise (· < ·) → (∀ b ∈ profile, b.minute ≤ 1439 ∧ b.pressure ≤ 10000) →
    let line := fun (a b : Breakpoint) (ta tb : Int) => (2 * (a.pressure * (tb - m) + b.pressure * (m - ta)) + (tb - ta))
      / (2 * (tb - ta))
    (∀ b, profile = [b] → profilePressure profile m = b.pressure) ∧
    (∀ before a b after, profile = before ++ a :: b :: after → a.minute ≤ m → m < b.minute →
      (profilePressure profile m : Int) = line a b a.minute b.minute) ∧
    (∀ first middle last, profile = first :: middle ++ [last] →
      (last.minute ≤ m → (profilePressure profile m : Int) = line last first last.minute (first.minute + 1440)) ∧
      (m < first.minute → (profilePressure profile m : Int) = line last first (last.minute - 1440) first.minute)) ∧
    (∀ b ∈ profile, b.minute = m → profilePressure profile m = b.pressure) ∧
    profilePressure profile m ≤ 10000

/-- R90: FOG gives each district it names the raise and restarts or stops its expiry; the expiry ends the raise. Neither
does anything else. -/
def Obligations.FogActs : Prop :=
  (∀ (d n : Nat) (s : State) (r : District), isRestarting s = false → s.district d = some r → r.fogTimer = .running n →
    exec (.fogTimerExpiry d) s = .next (s.putDistrict d { r with fogRaise := 0, fogTimer := .stopped })) ∧
  ∀ (f : List Byte) (r : Received) (s u : State), Requested 15 f r s u →
    let d := octetAt f 0
    let raise := field f 1 2
    let duration := field f 3 2
    let answer := fun result v => exec .fog s = .next (answered r 15 result [] v)
    let wrong := 6 < d ∨ 1000 < raise ∨ 720 < duration
    let named := fun k => d = 0 ∨ k = d
    (f.length ≠ 5 → answer .badFormat u) ∧
    (f.length = 5 → wrong → answer .outOfRange u) ∧
    (f.length = 5 → ¬ wrong → (∀ k, named k → u.district k = none) → answer .unknownItem u) ∧
    (f.length = 5 → ¬ wrong → (∃ k q, named k ∧ u.district k = some q) →
      ∃ w, answer .accepted { u with districts := w } ∧
        ∀ k, ({ u with districts := w } : State).district k = (u.district k).map (fun q =>
          if d = 0 ∨ k = d then
            { q with
              fogRaise := raise, fogTimer := if raise = 0 ∨ duration = 0 then .stopped else .running duration }
          else q))

/-! ### The Account Unit (R101, R115, R116) -/

/-- R101: a VALID clock advances by a second, wrapping at the end of the day, and notes each whole hour reached. -/
def Obligations.ClockAdvances : Prop :=
  ∀ s : State, s.clock.valid = true →
    let t := if s.clock.timeOfDay = 86399 then 0 else s.clock.timeOfDay + 1
    exec .clockSecond s = .next { s with clock := { s.clock with
      timeOfDay := t
      dayCount := if s.clock.timeOfDay = 86399 then (s.clock.dayCount + 1) % 65536 else s.clock.dayCount
      hoursDue := if t % 3600 = 0 then s.clock.hoursDue ++ [t / 3600] else s.clock.hoursDue } }

/-- R113, R115, R116: a whole hour that the current book has not yet opened closes the open hour, closes the day if it is
the book's start hour, and opens the hour of the present time. A close writes the hour-end stock and the flags and owes
HOUR-CLOSE by section; a day close forms the totals and the UAG, raises DAY-OVERWRITTEN over a previous book not collected,
opens a book at the closing stock and owes DAY-CLOSE; an opening takes the opening values, or joins them to those of a
CLOSED hour. That WHOLE_HOUR takes the oldest hour noted in the clock, and drops it there, is log 7. -/
def Obligations.WholeHourCloses : Prop :=
  (∀ b : DayBook, openHourNumber b = (List.range 24).find? (fun n => (b.hours[n]?).any (fun r => r.state == .opened))) ∧
  (∀ (s : State) (hour : Nat) (rest : List Nat) (b : DayBook), isRestarting s = false →
    s.clock.hoursDue = hour :: rest → s.currentBook = some b →
    let t := { s with clock := { s.clock with hoursDue := rest } }
    let n := (hour + 24 - b.startHour) % 24
    let w := (openHourNumber b).elim t (fun k => hourClosed s.clock.setMark b k t)
    exec .wholeHour s = .next
      (if openHourNumber b = some n then t
       else presentHourOpened (if n = 0 then w.currentBook.elim w (fun c => dayClosed c w) else w))) ∧
  (∀ (s : State) (clockSet : Bool) (b : DayBook) (n : Nat), s.currentBook = some b → openHourNumber b = some n →
    closeOpenHour clockSet s = hourClosed clockSet b n s ∧
    (closeOpenHour clockSet s).currentBook = some (hoursClosed clockSet s b) ∧
    (closeOpenHour clockSet s).clock = { s.clock with setMark := false }) ∧
  ∀ (s : State) (b : DayBook), s.currentBook = some b →
    let sum := fun f : Hour → Nat => (b.hours.toList.map f).sum
    let sendOut := sum (fun r => (r.districts.toList.map (·.volume)).sum)
    let make := sum (fun r => (r.makes.toList.map (·.volume)).sum)
    dayClose s = dayClosed b s ∧
    ∃ p c, (dayClose s).previousBook = some p ∧ (dayClose s).currentBook = some c ∧
      p.closing = some s.yardStock ∧ p.totals.map (·.sendOut) = some sendOut ∧ p.totals.map (·.make) = some make ∧
      p.uag = some ((b.opening : Int) + make - sendOut - s.yardStock) ∧
      p.hours = b.hours ∧ p.gasDay = b.gasDay ∧ p.collected = b.collected ∧
      c.opening = s.yardStock ∧ c.startHour = s.settings.startHour ∧ c.closing = none ∧ c.collected = false ∧
      c.gasDay = if s.settings.startHour ≤ s.clock.timeOfDay / 3600 then s.clock.dayCount
        else (s.clock.dayCount + 65535) % 65536

/-! ### Requests (R169) -/

/-- Chapter 8, Codes: results. -/
def Sys2Proof.Claims.results : List ResultCode :=
  [.accepted, .badFormat, .outOfRange, .duplicate, .unknownItem, .inService, .full, .noClock, .stepTooLarge, .staleAck,
    .notAllowed]

/-- R169: an ANSWER in a request's buffer at the tail of the office ROUTINE queue. -/
def Sys2Proof.Claims.answerJoined (r : Received) (code : Byte) (result : ResultCode) (data : List Byte) (tag : Tag)
    (s : State) : State :=
  s.modPort .o (fun q => { q with routine := q.routine ++
    [⟨r.buffer, frame 0 240 5 (code :: octet (results.idxOf result) :: data), tag⟩] })

/-- R135, R169: an ANSWER joins the tail of the office ROUTINE queue in the request's own buffer, nothing else changes, and
the telegrams of port O that no command takes follow: a MANAGE to another address than 240, or taken outside READY, is taken
and its buffer freed; one to 240 with an empty body or a code of 0 or over 21 is answered BAD-FORMAT; and so on, until port O
has no telegram waiting or its oldest is a COMMAND or a request (that they are taken so is log 3). The oldest telegram of a
port is the first of it in reception. The codes of a request's fields are those listed. -/
def Obligations.AnswersJoinOfficeQueue : Prop :=
  (∀ (p : Port) (s : State), takeReceived p s = (s.line.received.find? (fun r => r.port == p)).map (fun r =>
    (r, { s with line := { s.line with received := s.line.received.eraseP (fun r => r.port == p) } }))) ∧
  (∀ (r : Received) (code : Nat) (result : ResultCode) (data : List Byte) (v : State),
    answered r code result data v = drain (answerJoined r (octet code) result data
      (if code = 21 ∧ result = .accepted then .resetAnswer else .plain) v)) ∧
  (∀ s : State, takeReceived .o s = none → drain s = s) ∧
  (∀ (s u : State) (r : Received), takeReceived .o s = some (r, u) →
    let body := bodyOf r.octets
    let code := octetAt body 0
    let ours := destinationOf r.octets = 240 ∧ s.unit = .ready
    let request := body ≠ [] ∧ 1 ≤ code ∧ code ≤ 21
    (kindOf r.octets ≠ 4 → drain s = s) ∧
    (kindOf r.octets = 4 → ¬ ours → drain s = drain (freeBuffer r.buffer u)) ∧
    (kindOf r.octets = 4 → ours → ¬ request → drain s = drain (answerJoined r (octet code) .badFormat [] .plain u)) ∧
    (kindOf r.octets = 4 → ours → request → drain s = s)) ∧
  (∀ (s u : State) (r : Received), takeReceived .o (drain s) = some (r, u) → kindOf r.octets = 4 →
    destinationOf r.octets = 240 ∧ s.unit = .ready ∧ 1 ≤ octetAt (bodyOf r.octets) 0 ∧ octetAt (bodyOf r.octets) 0 ≤ 21) ∧
  ∀ n : Nat,
    boolOf n = [false, true][n]? ∧ poolModeOf n = [PoolMode.shared, .partitioned][n]? ∧
    ratioOf n = [Ratio.strict, .eight, .four, .two][n]? ∧ modeOf n = [Mode.released, .manual, .auto][n]? ∧
    pointKindOf n = [PointKind.level, .count, .period][n]? ∧
    forwardModeOf n = [ForwardMode.pass, .annotate, .suppress][n]? ∧
    stationKindOf n = [StationKind.holder, .governor, .meter, .telltale, .calorimeter, .general][n]? ∧
    alarmKindOf n = if n = 0 then none else alarmKinds[n - 1]?

/-- R149: a point field that may be none. -/
def Sys2Proof.Claims.mayBePoint (v : Nat) : Prop := v ≤ 191 ∨ v = 255

/-- A point field's meaning. -/
def Sys2Proof.Claims.pointOr (v : Nat) : Option Nat := if v = 255 then none else some v

/-- Every octet from an offset is 0 or 1. -/
def Sys2Proof.Claims.bitsFrom (f : List Byte) (i : Nat) : Prop := ∀ o ∈ f.drop i, o.toNat ≤ 1

/-- R171, R172: LOAD-SETTINGS replaces the Yard Settings whole, and the holding test follows at once. -/
def Obligations.LoadSettingsActs : Prop :=
  ∀ (f : List Byte) (r : Received) (s u : State), Requested 1 f r s u →
    let answer := fun result v => exec .loadSettings s = .next (answered r 1 result [] v)
    let coded := poolModeOf (octetAt f 5) ≠ none ∧ ratioOf (octetAt f 9) ≠ none ∧ ratioOf (octetAt f 10) ≠ none ∧
      ratioOf (octetAt f 11) ≠ none ∧ bitsFrom f 14
    let inRange := (10000 ≤ field f 0 2 ∧ field f 0 2 ≤ 30000) ∧ octetAt f 2 ≤ 23 ∧ mayBePoint (octetAt f 3) ∧
      mayBePoint (octetAt f 4) ∧ (4 ≤ octetAt f 6 ∧ octetAt f 6 ≤ 80) ∧
      (octetAt f 6 < octetAt f 7 ∧ octetAt f 7 ≤ 88) ∧ (1 ≤ octetAt f 8 ∧ octetAt f 8 ≤ 60) ∧
      5 ≤ octetAt f 12 ∧ 5 ≤ octetAt f 13
    (¬ (f.length = 34 ∧ coded) → answer .badFormat u) ∧
    (f.length = 34 ∧ coded → ¬ inRange → answer .outOfRange u) ∧
    (f.length = 34 ∧ coded → inRange → ∃ x : Settings,
      answer .accepted (holdingTest { u with settings := x }) ∧
      x.declaredCv = field f 0 2 ∧ x.startHour = octetAt f 2 ∧ x.barometerPoint = pointOr (octetAt f 3) ∧
      x.calorimeterPoint = pointOr (octetAt f 4) ∧ x.poolMode.code = octetAt f 5 ∧ x.holdMark = octetAt f 6 ∧
      x.goMark = octetAt f 7 ∧ x.holdDuration = octetAt f 8 ∧ x.ratioO.code = octetAt f 9 ∧
      x.ratioN.code = octetAt f 10 ∧ x.ratioS.code = octetAt f 11 ∧ x.guardN = octetAt f 12 ∧
      x.guardS = octetAt f 13 ∧
      [x.enables.officeToN, x.enables.officeToS, x.enables.nToS, x.enables.sToN, x.enables.nToOffice,
        x.enables.sToOffice] ++ x.reportEnables.toList = (List.range 20).map (fun i => octetAt f (14 + i) == 1))

/-- R130: the largest linked number of a kind. -/
def Sys2Proof.Claims.linkLimit (k : StationKind) : Nat := if k = .holder then 8 else if k = .governor then 6 else 0

/-- R130, R131: LOAD-STATION creates an entry, taking a stranger's place, or rewrites the configured fields of one. -/
def Obligations.LoadStationActs : Prop :=
  ∀ (f : List Byte) (r : Received) (s u : State), Requested 2 f r s u →
    let a := octetAt f 0
    let wait := field f 3 2
    let reply := field f 5 2
    let answer := fun result v => exec .loadStation s = .next (answered r 2 result [] v)
    let timer : Timer := if wait = 0 then .stopped else .running wait
    (f.length ≠ 7 ∨ stationKindOf (octetAt f 1) = none → answer .badFormat u) ∧
    ∀ kind, f.length = 7 → stationKindOf (octetAt f 1) = some kind →
      if a < 1 ∨ 239 < a ∨ linkLimit kind < octetAt f 2 ∨ 600 < wait ∨ reply < 500 ∨ 10000 < reply then
        answer .outOfRange u
      else
        match u.station a with
        | some _ =>
          answer .accepted (u.modStation a (fun e => { e with
            kind := kind, linked := octetAt f 2, waitingTime := wait, replyTime := reply
            waitingTimer := if e.liveness = .silent ∨ wait = e.waitingTime then e.waitingTimer else timer }))
        | none =>
          if 48 ≤ u.directory.length then answer .full u
          else ∃ dir, answer .accepted { u with
              directory := dir, strangers := u.strangers.filter (fun e => e.address != a) } ∧
            ({ u with directory := dir } : State).station a = some
              ⟨a, kind, octetAt f 2, wait, reply, (u.stranger a).map (·.branch), .unheard,
                (u.stranger a).bind (·.lastHeard), 0, timer, .empty, []⟩ ∧
            (dir.filter (fun e => e.address != a)) = u.directory ∧ dir.length = u.directory.length + 1

/-- R132: DROP-STATION ends the station's orders by their origin (R76; a SET is told by its code, log 20), ends each entry of
the closure sequence of a holder it serves by R57 (R58), stops the waiting timer, clears STATION-SILENT, and removes the
entry. Where a failed close takes an outlet from the supply, a supply state acts before the clamp (log 28), and the head taken
at a governor station waits for ORDER_SEND (log 4). -/
def Obligations.DropStationActs : Prop :=
  ∀ (f : List Byte) (r : Received) (s u : State), Requested 3 f r s u →
    let a := octetAt f 0
    let answer := fun result v => exec .dropStation s = .next (answered r 3 result [] v)
    if f.length ≠ 1 then answer .badFormat u
    else if a < 1 ∨ 239 < a then answer .outOfRange u
    else if u.station a = none then answer .unknownItem u
    else
      let w := ordersDropped a u
      let w := match w.holderOfStation a with
        | none => w
        | some h => (w.routing h).elim w (fun q => sequenceDropped h q.sequence w)
      let w := cleared .stationSilent a (w.modStation a (fun e => { e with waitingTimer := .stopped }))
      let v := { w with directory := w.directory.filter (fun e => e.address != a) }
      answer .accepted v ∧ v.station a = none ∧ v.points = u.points ∧ v.strangers = u.strangers ∧
        v.holders = u.holders

/-- R16: whether a loaded point is in service. -/
def Sys2Proof.Claims.inService (n : Nat) (s : State) : Prop :=
  s.point n ≠ none ∧
    ((∃ h r, s.holder h = some r ∧ r.inReckoning = true ∧
      (r.gaugePoint = n ∨ r.pressurePoint = some n ∨ r.temperaturePoint = some n)) ∨
     ∃ d r, s.district d = some r ∧ r.mode = .auto ∧ r.tellTalePoint = some n)

/-- R7: the hand-over of a point that has become NONE (log 29). -/
def Sys2Proof.Claims.noneHanded (n : Nat) (former : Option Point) (s : State) : State :=
  match former with
  | none => s
  | some p => handUpdate ⟨n, p.kind, none, .none, false⟩ s

/-- R2, R16: LOAD-POINT writes a point with no value, its limits 0 unless it is LEVEL, and hands a held point's change to
NONE to its consumers, with the kind it had (log 29). -/
def Obligations.LoadPointActs : Prop :=
  ∀ (f : List Byte) (r : Received) (s u : State), Requested 4 f r s u →
    let n := octetAt f 0
    let station := octetAt f 1
    let channel := octetAt f 2
    let answer := fun result v => exec .loadPoint s = .next (answered r 4 result [] v)
    (f.length ≠ 17 ∨ pointKindOf (octetAt f 3) = none ∨ forwardModeOf (octetAt f 4) = none ∨ n = 255 →
      answer .badFormat u) ∧
    ∀ kind mode, f.length = 17 → n ≠ 255 → pointKindOf (octetAt f 3) = some kind →
      forwardModeOf (octetAt f 4) = some mode →
      let lo := signedField f 5 4
      let hi := signedField f 9 4
      let rawMin := field f 13 2
      let rawMax := field f 15 2
      let wrong := 191 < n ∨ station < 1 ∨ 240 < station ∨ 15 < channel ∨ station = 240 ∧ 3 < channel ∨
        kind = .level ∧ (hi ≤ lo ∨ rawMax < rawMin)
      let taken := ∃ k p, k ≠ n ∧ findPoint station channel u = some k ∧ u.point k = some p
      let x : Point :=
        if kind = .level then ⟨station, channel, kind, lo, hi, rawMin, rawMax, mode, none, none, .none, none⟩
        else ⟨station, channel, kind, 0, 0, 0, 0, mode, none, none, .none, none⟩
      (wrong → answer .outOfRange u) ∧
      (¬ wrong → taken → answer .duplicate u) ∧
      (¬ wrong → ¬ taken → inService n u → answer .inService u) ∧
      (¬ wrong → ¬ taken → ¬ inService n u →
        answer .accepted (noneHanded n (u.point n) (u.putPoint n (some x))))

/-- R17: DROP-POINT empties an entry, and hands the change to NONE to the point's consumers. -/
def Obligations.DropPointActs : Prop :=
  ∀ (f : List Byte) (r : Received) (s u : State), Requested 5 f r s u →
    let n := octetAt f 0
    let answer := fun result v => exec .dropPoint s = .next (answered r 5 result [] v)
    (f.length ≠ 1 ∨ n = 255 → answer .badFormat u) ∧
    (f.length = 1 → n ≠ 255 →
      (191 < n → answer .outOfRange u) ∧
      (n ≤ 191 → u.point n = none → answer .unknownItem u) ∧
      ∀ p, n ≤ 191 → u.point n = some p →
        (inService n u → answer .inService u) ∧
        (¬ inService n u →
          answer .accepted (handUpdate ⟨n, p.kind, none, .none, false⟩ (u.putPoint n none))))

/-- R18: LOAD-VAPOUR fills the consecutive entries it names and leaves the others; a lookup of a whole degree then reads
them. -/
def Obligations.LoadVapourActs : Prop :=
  ∀ (f : List Byte) (r : Received) (s u : State), Requested 6 f r s u →
    let first := octetAt f 0
    let count := octetAt f 1
    let pressure := fun i => field f (2 + 2 * i) 2
    let answer := fun result v => exec .loadVapour s = .next (answered r 6 result [] v)
    let wrong := count < 1 ∨ 27 < count ∨ 40 < first ∨ 41 < first + count ∨ ∃ i, i < count ∧ 10000 < pressure i
    (f.length ≠ 2 + 2 * count → answer .badFormat u) ∧
    (f.length = 2 + 2 * count → wrong → answer .outOfRange u) ∧
    (f.length = 2 + 2 * count → ¬ wrong → ∃ w, answer .accepted { u with vapour := w } ∧
      ∀ i, i < 41 →
        w[i]? = (if first ≤ i ∧ i < first + count then some (some (pressure (i - first))) else u.vapour[i]?) ∧
        (first ≤ i → i < first + count →
          vapourLookup (100 * i) { u with vapour := w } = (pressure (i - first), false)))

/-- R19: LOAD-LOCAL stores the settings; enable on performs the enabling sequence afresh, and enable off stops a running
converter and makes the points of station 240 that are not NONE STALE, handing on each that changes (R8). -/
def Obligations.LoadLocalActs : Prop :=
  ∀ (f : List Byte) (r : Received) (s u : State), Requested 7 f r s u →
    let resolution := octetAt f 1
    let period := octetAt f 2
    let answer := fun result v => exec .loadLocal s = .next (answered r 7 result [] v)
    let c := { u.localConverter with enabled := octetAt f 0 == 1, resolution := resolution, scanPeriod := period }
    if f.length ≠ 3 ∨ 1 < octetAt f 0 then answer .badFormat u
    else if resolution ∉ [8, 10, 12] ∨ period < 1 ∨ 60 < period then answer .outOfRange u
    else if octetAt f 0 = 1 then answer .accepted { u with localConverter :=
      { c with running := .settling, settleTimer := .running 2, scanTimer := .running period, scanning := false } }
    else if u.localConverter.running = .disabled then answer .accepted { u with localConverter := c }
    else answer .accepted (pointsStale 240 { u with localConverter :=
      { c with running := .disabled, settleTimer := .stopped, scanTimer := .stopped, scanning := false } })

/-- R22: the computed fields after LOAD-HOLDER or LOAD-LIFT. -/
def Sys2Proof.Claims.uncomputed (r : Holder) : Holder :=
  { r with
    rise := none, stage := none, actualVolume := none, stock := none, pressure := none, quality := .stale
    condition := .normal, blind := false, overTop := false }

/-- R20, R41: the record LOAD-HOLDER writes, OUT of reckoning, over the lift entries it keeps. -/
def Sys2Proof.Claims.holderLoaded (f : List Byte) (lifts : Vector (Option Lift) 4) : Holder :=
  { valveStation := octetAt f 1, gaugePoint := octetAt f 2
    pressurePoint := pointOr (octetAt f 3), temperaturePoint := pointOr (octetAt f 4)
    baseVolume := field f 5 4, stageCount := octetAt f 9, topRise := field f 10 2
    landedMark := field f 12 2, lowMark := field f 14 2, highMark := field f 16 2, topMark := field f 18 2
    hysteresis := field f 20 2, permitted := Vector.ofFn (fun i : Fin 6 => octetAt f (22 + i.val) == 1)
    inReckoning := false
    lifts := Vector.ofFn (fun i : Fin 4 => if i.val < octetAt f 9 then lifts[i] else none)
    rise := none, stage := none, actualVolume := none, stock := none, pressure := none, quality := .stale
    condition := .normal, blind := false, overTop := false }

/-- R41: a LOAD-HOLDER's fields in range. -/
def Sys2Proof.Claims.holderFieldsFit (f : List Byte) : Prop :=
  (1 ≤ octetAt f 0 ∧ octetAt f 0 ≤ 8) ∧ (1 ≤ octetAt f 1 ∧ octetAt f 1 ≤ 239) ∧ octetAt f 2 ≤ 191 ∧
    mayBePoint (octetAt f 3) ∧ mayBePoint (octetAt f 4) ∧ field f 5 4 ≤ 10000000 ∧
    (1 ≤ octetAt f 9 ∧ octetAt f 9 ≤ 4) ∧ (1 ≤ field f 10 2 ∧ field f 10 2 ≤ 65000) ∧ field f 12 2 ≤ 65000 ∧
    field f 14 2 ≤ 65000 ∧ field f 16 2 ≤ 65000 ∧ field f 18 2 ≤ 65000 ∧ field f 20 2 ≤ 500

/-- R42: a Routing Record as it comes into being. -/
def Sys2Proof.Claims.routingFresh : Routing := ⟨Vector.replicate 7 .unknown, Vector.replicate 6 false, [], none⟩

/-- R42, R52, R53, R59: the OPENs waiting at a station that has become a valve station are withdrawn with cause OUT. -/
def Sys2Proof.Claims.stationTaken (a : Nat) (s : State) : State := headTaken a (withdrawn a .out s)

/-- R59: CLOSE-FAILED of a holder cleared for every valve, in ascending valve number (log 34). -/
def Sys2Proof.Claims.failuresCleared (h : Nat) (s : State) : State :=
  [0, 1, 2, 3, 4, 5, 6].foldl (fun t v => clearAlarm ⟨.closeFailed, h, some v⟩ t) s

/-- R45, R94: a holder's outlet set as handed to the Pressure Scheduler, emptied. -/
def Sys2Proof.Claims.handedSetEmptied (h : Nat) (s : State) : State :=
  { s with outletSets := s.outletSets.setIfInBounds (h - 1) (Vector.replicate 6 false) }

/-- R41, R42, R59: LOAD-HOLDER writes the record of a holder that is OUT and forms the yard stock afresh. A holder loaded
for the first time gets a Routing Record; a new valve station begins one afresh, CLOSE-FAILED being cleared for every valve
and an empty outlet set handed over where the former was not empty; the OPENs waiting at the station are withdrawn. The
order of these actions is log 26, that of the valves log 34; that 255 as the gauge point is BAD-FORMAT, not OUT-OF-RANGE, is
log 11. Where the set emptied changes a district's supply, a supply state acts before the clamp (log 28) and a SET is told by
its code (log 20); a head taken waits for ORDER_SEND (log 4). -/
def Obligations.LoadHolderActs : Prop :=
  ∀ (f : List Byte) (r : Received) (s u : State), Requested 8 f r s u →
    let h := octetAt f 0
    let a := octetAt f 1
    let answer := fun result v => exec .loadHolder s = .next (answered r 8 result [] v)
    let formatted := f.length = 28 ∧ octetAt f 2 ≠ 255 ∧ bitsFrom f 22
    let taken := (∃ k q, k ≠ h ∧ u.holder k = some q ∧ q.valveStation = a) ∨ ∃ d q, u.district d = some q ∧ q.governor = a
    (¬ formatted → answer .badFormat u) ∧
    (formatted → ¬ holderFieldsFit f → answer .outOfRange u) ∧
    (formatted → holderFieldsFit f → taken → answer .duplicate u) ∧
    (formatted → holderFieldsFit f → ¬ taken →
      (∀ q, u.holder h = some q → q.inReckoning = true → answer .inService u) ∧
      (u.holder h = none → ∃ v,
        v = stationTaken a (handedSetEmptied h
          ((yardFormed (u.putHolder h (holderLoaded f (Vector.replicate 4 none)))).putRouting h routingFresh)) ∧
        answer .accepted v ∧ v.holder h = some (holderLoaded f (Vector.replicate 4 none)) ∧
        v.routing h = some routingFresh) ∧
      ∀ q g, u.holder h = some q → u.routing h = some g → q.inReckoning = false →
        let w := yardFormed (u.putHolder h (holderLoaded f q.lifts))
        let moved := failuresCleared h (w.putRouting h routingFresh)
        let emptied := if g.outletSet = Vector.replicate 6 false then moved else supplyRecomputed (handedSetEmptied h moved)
        (q.valveStation = a → answer .accepted w) ∧
        (q.valveStation ≠ a → ∃ v, v = stationTaken a emptied ∧ answer .accepted v ∧
          v.holder h = some (holderLoaded f q.lifts) ∧ v.routing h = some routingFresh ∧ v.points = u.points))

/-- R41: LOAD-LIFT fills one entry of the lift table of a holder that is OUT; the computed fields and the yard stock are
formed afresh (R32), and nothing else changes. -/
def Obligations.LoadLiftActs : Prop :=
  ∀ (f : List Byte) (r : Received) (s u : State), Requested 9 f r s u →
    let h := octetAt f 0
    let k := octetAt f 1
    let answer := fun result v => exec .loadLift s = .next (answered r 9 result [] v)
    if f.length ≠ 10 then answer .badFormat u
    else if h < 1 ∨ 8 < h ∨ k < 1 ∨ 4 < k ∨ 65000 < field f 2 2 ∨ (k = 1 ∧ field f 2 2 ≠ 0) ∨ field f 4 4 < 1 ∨
        400000 < field f 4 4 ∨ 5000 < field f 8 2 then answer .outOfRange u
    else
      match u.holder h with
      | none => answer .unknownItem u
      | some q =>
        if q.stageCount < k then answer .unknownItem u
        else if q.inReckoning = true then answer .inService u
        else answer .accepted (yardFormed (u.putHolder h { uncomputed q with
          lifts := q.lifts.setIfInBounds (k - 1) (some ⟨field f 2 2, field f 4 4, field f 8 2⟩) }))

/-- R21, R39: what HOLDER-SERVICE IN requires. -/
def Sys2Proof.Claims.mayEnter (q : Holder) (s : State) : Prop :=
  let table := q.lifts.toList.take q.stageCount
  let pickups := table.filterMap (fun l => l.map (·.pickup))
  (∀ l ∈ table, l ≠ none) ∧ pickups.Pairwise (· < ·) ∧ (∃ g, pickups.getLast? = some g ∧ g < q.topRise) ∧
    (q.landedMark < q.lowMark ∧ q.lowMark < q.highMark ∧ q.highMark < q.topMark ∧ q.topMark ≤ q.topRise) ∧
    (q.landedMark + q.hysteresis < q.lowMark ∧ q.lowMark + q.hysteresis < q.highMark ∧
      q.highMark + q.hysteresis < q.topMark) ∧
    ∃ p, s.point q.gaugePoint = some p ∧ p.kind = .level

/-- R39, R40: HOLDER-SERVICE brings a holder IN, blind until a GOOD gauge is reckoned, which is at once where it is GOOD
now; or takes it OUT, keeping its stock, in the order of R40's table. Each change of reckoning state has the supply of every
district formed afresh (R95 to R97; a supply state that changes acts first, log 28, and a SET is told by its code, log 20).
The closes of a condition reckoned at once keep the cause that added them (log 15); a head taken waits for ORDER_SEND
(log 4). -/
def Obligations.HolderServiceActs : Prop :=
  ∀ (f : List Byte) (r : Received) (s u : State), Requested 10 f r s u →
    let h := octetAt f 0
    let answer := fun result v => exec .holderService s = .next (answered r 10 result [] v)
    (f.length ≠ 2 ∨ 1 < octetAt f 1 → answer .badFormat u) ∧
    (f.length = 2 → octetAt f 1 ≤ 1 →
      (h < 1 ∨ 8 < h → answer .outOfRange u) ∧
      (1 ≤ h → h ≤ 8 → u.holder h = none → answer .unknownItem u) ∧
      ∀ q, u.holder h = some q →
        (octetAt f 1 = 1 → ¬ mayEnter q u → answer .notAllowed u) ∧
        (octetAt f 1 = 1 → mayEnter q u → q.inReckoning = true → answer .accepted u) ∧
        (octetAt f 1 = 1 → mayEnter q u → q.inReckoning = false →
          let x := { q with inReckoning := true, condition := .normal, blind := true, quality := .stale, overTop := false }
          let w := partialFlagged (supplyRecomputed (oweReference (.holder h) (yardFormed (u.putHolder h x))))
          match (u.point q.gaugePoint).bind (fun p => if p.quality = .good then p.value else none) with
          | none => answer .accepted w ∧ w.holder h = some x
          | some g => answer .accepted (reckoningTaken h g w)) ∧
        (octetAt f 1 = 0 → q.inReckoning = false → answer .accepted u) ∧
        (octetAt f 1 = 0 → q.inReckoning = true → ∃ v, answer .accepted v ∧
          v = partialFlagged (supplyRecomputed (causeTaken h .out (oweReference (.holder h) (yardFormed
            ((cleared .holderBlind h (cleared .overTop h (conditionCleared h q.condition u))).putHolder h { q with
              inReckoning := false, condition := .normal, blind := false, overTop := false, quality := .stale }))))) ∧
          v.holder h = some { q with
            inReckoning := false, condition := .normal, blind := false, overTop := false, quality := .stale } ∧
          (∀ k, k ≠ h → v.holder k = u.holder k) ∧ v.points = u.points))

/-- R79: the configuration a LOAD-DISTRICT carries, written over a record. -/
def Sys2Proof.Claims.districtConfigured (f : List Byte) (r : District) : District :=
  { r with
    governor := octetAt f 1, minimum := field f 2 2, maximum := field f 4 2, drop := field f 6 2
    stepPeriod := field f 8 2, slew := field f 10 2, deadband := octetAt f 12
    outletMeter := pointOr (octetAt f 13), kneeRate := field f 14 2, loadFactor := field f 16 2
    raiseCap := field f 18 2, tellTalePoint := pointOr (octetAt f 20), tellTaleMinimum := field f 21 2
    gain := octetAt f 23, decay := field f 24 2, correctionCap := field f 26 2, stepTimer := .running (field f 8 2) }

/-- R80: the state fields of a record loaded for the first time. -/
def Sys2Proof.Claims.districtFresh (f : List Byte) (limit : Nat) (supplied : Bool) : District :=
  districtConfigured f
    { governor := 0, minimum := 0, maximum := 0, drop := 0, stepPeriod := 0, slew := 0, deadband := 0
      outletMeter := none, kneeRate := 0, loadFactor := 0, raiseCap := 0, tellTalePoint := none, tellTaleMinimum := 0
      gain := 0, decay := 0, correctionCap := 0
      mode := .released, activeProfile := [], nextProfile := [], nextPending := false, generation := 0
      active := none, lastSent := none, lastTarget := none, correction := 0, fogRaise := 0, fogTimer := .stopped
      supplyLimit := limit, supplied := supplied, setFailed := false, reportedSetpoint := none, releasedMark := none
      stepTimer := .stopped }

/-- R79, R98: a LOAD-DISTRICT's fields in range. -/
def Sys2Proof.Claims.districtFieldsFit (f : List Byte) : Prop :=
  (1 ≤ octetAt f 0 ∧ octetAt f 0 ≤ 6) ∧ (1 ≤ octetAt f 1 ∧ octetAt f 1 ≤ 239) ∧ field f 2 2 ≤ field f 4 2 ∧
    field f 4 2 ≤ 10000 ∧ field f 6 2 ≤ 1000 ∧ (30 ≤ field f 8 2 ∧ field f 8 2 ≤ 600) ∧
    (1 ≤ field f 10 2 ∧ field f 10 2 ≤ 1000) ∧ octetAt f 12 ≤ 200 ∧
    (1 ≤ octetAt f 13 ∧ octetAt f 13 ≤ 8 ∨ octetAt f 13 = 255) ∧ field f 14 2 ≤ 60000 ∧ field f 16 2 ≤ 1000 ∧
    field f 18 2 ≤ 2000 ∧ mayBePoint (octetAt f 20) ∧ field f 21 2 ≤ 10000 ∧ octetAt f 23 ≤ 100 ∧
    field f 24 2 ≤ 1000 ∧ field f 26 2 ≤ 2000

/-- R80, R94, R97, R98: LOAD-DISTRICT loads a record, its supply formed at once, or rewrites the configuration of one that
is not in AUTO, its supply formed afresh with what a changed limit or supply state brings (R95 to R97; logs 20, 28); a new
governor station is not believed to hold anything yet, and the last-sent setpoint so forgotten owes no SETPOINT (log 38).
What a first load owes is log 31; a head taken waits for ORDER_SEND (log 4). -/
def Obligations.LoadDistrictActs : Prop :=
  ∀ (f : List Byte) (r : Received) (s u : State), Requested 11 f r s u →
    let d := octetAt f 0
    let meter := pointOr (octetAt f 13)
    let answer := fun result v => exec .loadDistrict s = .next (answered r 11 result [] v)
    let taken := (∃ k q, k ≠ d ∧ u.district k = some q ∧
        (q.governor = octetAt f 1 ∨ meter ≠ none ∧ q.outletMeter = meter)) ∨
      ∃ h q, u.holder h = some q ∧ q.valveStation = octetAt f 1
    (f.length ≠ 28 → answer .badFormat u) ∧
    (f.length = 28 → ¬ districtFieldsFit f → answer .outOfRange u) ∧
    (f.length = 28 → districtFieldsFit f → taken → answer .duplicate u) ∧
    (f.length = 28 → districtFieldsFit f → ¬ taken →
      (u.district d = none →
        let supply := supplyFrom d (field f 6 2) u
        let v := u.putDistrict d (districtFresh f supply.1 supply.2)
        answer .accepted (if supply.2 then v else raiseAlarm ⟨.districtUnsupplied, d, none⟩ v)) ∧
      ∀ q, u.district d = some q →
        let x := districtConfigured f q
        let x := if x.governor = q.governor then x
          else { x with lastSent := none, reportedSetpoint := none, releasedMark := none, setFailed := false }
        (q.mode = .auto → answer .inService u) ∧
        (q.mode ≠ .auto → answer .accepted (districtRecomputed (u.putDistrict d x) d)))

/-- R84: LOAD-PROFILE replaces the next profile whole and marks it pending; the active profile and everything else stay. -/
def Obligations.LoadProfileActs : Prop :=
  ∀ (f : List Byte) (r : Received) (s u : State), Requested 12 f r s u →
    let d := octetAt f 0
    let n := octetAt f 1
    let points : List Breakpoint := (List.range n).map (fun i => ⟨field f (2 + 4 * i) 2, field f (4 + 4 * i) 2⟩)
    let answer := fun result v => exec .loadProfile s = .next (answered r 12 result [] v)
    let wrong := d < 1 ∨ 6 < d ∨ 12 < n ∨ (∃ b ∈ points, 1439 < b.minute ∨ 10000 < b.pressure) ∨
      ¬ (points.map (·.minute)).Pairwise (· < ·)
    (f.length ≠ 2 + 4 * n → answer .badFormat u) ∧
    (f.length = 2 + 4 * n → wrong → answer .outOfRange u) ∧
    (f.length = 2 + 4 * n → ¬ wrong →
      (u.district d = none → answer .unknownItem u) ∧
      ∀ q, u.district d = some q →
        if n = 0 ∧ q.mode = .auto then answer .notAllowed u
        else answer .accepted (u.putDistrict d { q with nextProfile := points, nextPending := true }))

/-- R81: DISTRICT-MODE moves a district between RELEASED, MANUAL and AUTO. RELEASED clears DISTRICT-SHORT and places one
automatic RELEASE for the governor station (R64, R65); MANUAL from AUTO clears DISTRICT-SHORT and removes the automatic SETs
waiting there; AUTO removes the office SETs and RELEASEs waiting there with SUPERSEDED, empties the correction and performs
a step boundary. A SETPOINT report is owed once the actions are complete. SET and RELEASE are told by their codes (log 20);
an order taken into an EMPTY slot waits there for ORDER_SEND (log 4). -/
def Obligations.DistrictModeActs : Prop :=
  ∀ (f : List Byte) (r : Received) (s u : State), Requested 14 f r s u →
    let d := octetAt f 0
    let answer := fun result v => exec .districtMode s = .next (answered r 14 result [] v)
    let short : AlarmKey := ⟨.districtShort, d, none⟩
    let put := fun (m : Mode) (v : State) => match v.district d with
      | none => v
      | some q => v.putDistrict d { q with mode := m }
    (f.length ≠ 2 ∨ modeOf (octetAt f 1) = none → answer .badFormat u) ∧
    ∀ m, f.length = 2 → modeOf (octetAt f 1) = some m →
      (d < 1 ∨ 6 < d → answer .outOfRange u) ∧
      (1 ≤ d → d ≤ 6 → u.district d = none → answer .unknownItem u) ∧
      ∀ q, u.district d = some q →
        if m = .auto ∧ (q.activeProfile = [] ∨ q.nextPending = true ∧ q.nextProfile = []) then answer .notAllowed u
        else if m = .auto ∧ u.clock.valid = false then answer .noClock u
        else if q.mode = m then answer .accepted u
        else answer .accepted (oweReference (.district d)
          (match m with
            | .released => releaseIssued d (put .released (clearAlarm short u))
            | .manual =>
              if q.mode = .auto then put .manual (automaticSetsRemoved q.governor (clearAlarm short u)) else put .manual u
            | .auto => boundary d (put .auto ((officeOrdersSuperseded q.governor u).putDistrict d { q with correction := 0 }))))

/-- R105: the target a LOAD-METER carries, if its kind is one. -/
def Sys2Proof.Claims.targetOf (f : List Byte) : Option MeterTarget :=
  if octetAt f 1 = 0 then some (.outlet (octetAt f 2)) else if octetAt f 1 = 1 then some (.make (octetAt f 2)) else none

/-- R105, R106: LOAD-METER writes a record; one already loaded keeps its computed fields, but for a changed COUNT or PERIOD
point. The number that the invalid last count of a new record holds, 0, is log 40; 255 as BAD-FORMAT is log 11. -/
def Obligations.LoadMeterActs : Prop :=
  ∀ (f : List Byte) (r : Received) (s u : State), Requested 16 f r s u →
    let m := octetAt f 0
    let number := octetAt f 2
    let answer := fun result v => exec .loadMeter s = .next (answered r 16 result [] v)
    let formatted := f.length = 15 ∧ targetOf f ≠ none ∧ octetAt f 3 ≠ 255 ∧ m ≠ 255
    let fits := (1 ≤ m ∧ m ≤ 8) ∧ 1 ≤ number ∧ number ≤ (if octetAt f 1 = 0 then 6 else 2) ∧ octetAt f 3 ≤ 191 ∧
      mayBePoint (octetAt f 4) ∧ mayBePoint (octetAt f 5) ∧ field f 6 2 ≤ 10000 ∧ mayBePoint (octetAt f 8) ∧
      (1 ≤ field f 9 4 ∧ field f 9 4 ≤ 100000) ∧ (1 ≤ field f 13 2 ∧ field f 13 2 ≤ 10000)
    let taken := ∃ k q, k ≠ m ∧ u.meter k = some q ∧ some q.target = targetOf f
    let loaded := fun (target : MeterTarget) (q : Meter) =>
      { q with
        target := target, countPoint := octetAt f 3, periodPoint := pointOr (octetAt f 4)
        pressurePoint := pointOr (octetAt f 5), fixedPressure := field f 6 2
        temperaturePoint := pointOr (octetAt f 8), pulseWeight := field f 9 4, deltaLimit := field f 13 2
        lastCountValid := q.lastCountValid && q.countPoint == octetAt f 3
        rate := if q.periodPoint = pointOr (octetAt f 4) then q.rate else 0 }
    (¬ formatted → answer .badFormat u) ∧
    (formatted → ¬ fits → answer .outOfRange u) ∧
    (formatted → fits → taken → answer .duplicate u) ∧
    ∀ target, formatted → fits → ¬ taken → targetOf f = some target →
      answer .accepted (u.putMeter m (loaded target
        ((u.meter m).getD ⟨target, 0, none, none, 0, none, 0, 0, 0, false, 0, 0, 0, ⟨false, false, false, false, false⟩⟩)))

/-- R102 to R104: SET-CLOCK makes an INVALID clock VALID, opens the first book at the yard stock and the hour of the new time
in it, adds each meter's unclocked accumulators and flags CLOCK-SET; steps a VALID one by at most 300 s; or with FORCE closes
the open hour with CLOCK-SET, in another gas day the day, and opens the hour of the new time with CLOCK-SET. The list of
hours due is the model's form (log 7). -/
def Obligations.SetClockActs : Prop :=
  ∀ (f : List Byte) (r : Received) (s u : State), Requested 17 f r s u →
    let day := field f 0 2
    let time := field f 2 4
    let answer := fun result v => exec .setClock s = .next (answered r 17 result [] v)
    let c := u.clock
    let round := 65536 * 86400
    let old := c.dayCount * 86400 + c.timeOfDay
    let new := day * 86400 + time
    let ahead := (new + round - old) % round
    let behind := (old + round - new) % round
    if f.length ≠ 7 ∨ 1 < octetAt f 6 then answer .badFormat u
    else if 86399 < time then answer .outOfRange u
    else if c.valid = false then
      let t := { u with clock := { c with valid := true, dayCount := day, timeOfDay := time } }
      let t := presentHourOpened (bookOpened t.yardStock t)
      answer .accepted (clockSetFlagged ([1, 2, 3, 4, 5, 6, 7, 8].foldl unclockedAdded t))
    else if octetAt f 6 = 1 then
      let t := u.currentBook.elim u (fun b => (openHourNumber b).elim u (fun k => hourClosed true b k u))
      let t := { t with clock := { t.clock with dayCount := day, timeOfDay := time, setMark := false, hoursDue := [] } }
      let gas := fun b : DayBook => if b.startHour ≤ time / 3600 then day else (day + 65535) % 65536
      let t := t.currentBook.elim t (fun b => if gas b = b.gasDay then t else dayClosed b t)
      answer .accepted (clockSetFlagged (presentHourOpened t))
    else if ahead = 0 then answer .accepted u
    else if ahead ≤ 300 then
      answer .accepted { u with clock := { c with
        dayCount := day, timeOfDay := time, setMark := true
        hoursDue := if c.timeOfDay / 3600 < (c.timeOfDay + ahead) / 3600 then c.hoursDue ++ [time / 3600]
          else c.hoursDue } }
    else if behind ≤ 300 then
      answer .accepted { u with clock := { c with
        dayCount := day, timeOfDay := time, setMark := true
        hoursDue := if c.timeOfDay % 3600 < behind then c.hoursDue.dropLast else c.hoursDue } }
    else answer .stepTooLarge u

/-- R117: COLLECT-DAY sets the collected flag of the previous book when it carries that book's gas day, and clears
DAY-OVERWRITTEN. -/
def Obligations.CollectDayActs : Prop :=
  ∀ (f : List Byte) (r : Received) (s u : State), Requested 18 f r s u →
    let answer := fun result v => exec .collectDay s = .next (answered r 18 result [] v)
    (f.length ≠ 2 → answer .badFormat u) ∧
    (f.length = 2 → (∀ b, u.previousBook = some b → b.gasDay ≠ field f 0 2) → answer .unknownItem u) ∧
    ∀ b, f.length = 2 → u.previousBook = some b → b.gasDay = field f 0 2 →
      answer .accepted (clearAlarm ⟨.dayOverwritten, 0, none⟩ { u with previousBook := some { b with collected := true } })

/-- R170: the items a selector gives. -/
def Sys2Proof.Claims.itemFits (selector item : Nat) : Prop :=
  if selector = 2 then item ≤ 191
  else if selector = 5 ∨ selector = 6 ∨ selector = 10 then 1 ≤ item ∧ item ≤ 8
  else if selector = 7 then 1 ≤ item ∧ item ≤ 239
  else if selector = 9 then 1 ≤ item ∧ item ≤ 6
  else if selector = 12 then item ≤ 1
  else if selector = 13 then item ≤ 23 ∨ 64 ≤ item ∧ item ≤ 87
  else if selector = 14 then item ≤ 2
  else item = 0

/-- A state for which the spec lists no code: its octet is free (log 32). -/
def Sys2Proof.Claims.unlisted (f : Config.CodeField) (place : Nat) : List Byte := laid 1 (Config.unstatedCode f place)

/-- The time remaining of the i-th timer shown: free, up to the timer's duration (log 8), in two octets (log 42). -/
def Sys2Proof.Claims.timeLeft (s : State) (i : Nat) : Timer → List Byte
  | .stopped => absent 2
  | .running d => num 2 ((min d (Config.timeRemaining (s.freeCount + i)) : Nat))

/-- R171: the fields of YARD-SETTINGS (the form of the declared CV and of the times: log 42). -/
def Sys2Proof.Claims.settingsShown (x : Settings) : List Byte :=
  let ratio := fun y : Ratio => num 1 ([Ratio.strict, .eight, .four, .two].idxOf y)
  num 2 x.declaredCv ++ num 1 x.startHour ++ numOr 1 x.barometerPoint ++ numOr 1 x.calorimeterPoint
    ++ num 1 ([PoolMode.shared, .partitioned].idxOf x.poolMode) ++ num 1 x.holdMark ++ num 1 x.goMark ++ num 1 x.holdDuration
    ++ ratio x.ratioO ++ ratio x.ratioN ++ ratio x.ratioS ++ num 1 x.guardN ++ num 1 x.guardS
    ++ [x.enables.officeToN, x.enables.officeToS, x.enables.nToS, x.enables.sToN, x.enables.nToOffice,
        x.enables.sToOffice].flatMap yes ++ x.reportEnables.toList.flatMap yes

/-- R2: the fields of a POINT (the form of the raw values: log 42; a quality NONE: log 32). -/
def Sys2Proof.Claims.pointShown (n : Nat) (p : Point) : List Byte :=
  num 1 n ++ num 1 p.station ++ num 1 p.channel ++ num 1 ([PointKind.level, .count, .period].idxOf p.kind)
    ++ signedOr 4 (some p.lo) ++ signedOr 4 (some p.hi) ++ num 2 p.rawMin ++ num 2 p.rawMax
    ++ num 1 ([ForwardMode.pass, .annotate, .suppress].idxOf p.forward) ++ numOr 2 p.lastRaw ++ signedOr 4 p.value
    ++ (if p.quality = .none then unlisted .quality 0
        else num 1 ([Quality.good, .suspect, .failed, .stale].idxOf p.quality))
    ++ numOr 4 p.updated

/-- LOCAL: in READY the settle timer is expired, and what it shows is free (log 45). -/
def Sys2Proof.Claims.localShown (s : State) : List Byte :=
  let c := s.localConverter
  yes c.enabled ++ num 1 c.resolution ++ num 1 c.scanPeriod
    ++ unlisted .localState ([LocalState.disabled, .settling, .ready].idxOf c.running)
    ++ (if c.running = .ready then laid 2 (Config.expiredTime s.freeCount) else timeLeft s 0 c.settleTimer)
    ++ timeLeft s 1 c.scanTimer

/-- R20 to R22: the fields of a HOLDER, then the lift table to the stage count, stage by stage (logs 9, 42, 44). -/
def Sys2Proof.Claims.holderRecordShown (h : Nat) (r : Holder) : List Byte :=
  num 1 h ++ num 1 r.valveStation ++ num 1 r.gaugePoint ++ numOr 1 r.pressurePoint ++ numOr 1 r.temperaturePoint
    ++ num 4 r.baseVolume ++ num 2 r.stageCount
    ++ [r.topRise, r.landedMark, r.lowMark, r.highMark, r.topMark, r.hysteresis].flatMap (fun v : Nat => num 2 v)
    ++ r.permitted.toList.flatMap yes ++ yes r.inReckoning
    ++ numOr 2 r.rise ++ numOr 1 r.stage ++ numOr 4 r.actualVolume ++ numOr 5 r.stock ++ numOr 2 r.pressure
    ++ stockQualityShown r.quality ++ conditionShown r.condition ++ yes r.blind ++ yes r.overTop
    ++ (r.lifts.toList.take r.stageCount).flatMap (fun l =>
      numOr 2 (l.map (·.pickup)) ++ numOr 4 (l.map (·.area)) ++ numOr 2 (l.map (·.pressure)))

/-- R43: the ordered state of a valve of a station, by the OPEN or CLOSE of it that entered last: 0 NONE, 1 OPEN, 2 CLOSE. -/
def Sys2Proof.Claims.orderedPlace (a v : Nat) (s : State) : Nat :=
  let orders := (s.station a).elim [] (fun e => e.slot.order?.toList ++ e.pendingList)
  let mine := orders.filter (fun o => decide (o.body.length = 3 ∧ (octetAt o.body 0 = 1 ∨ octetAt o.body 0 = 2) ∧
    field o.body 1 2 = v))
  match mine.find? (fun o => mine.all (fun q => decide (q.entered ≤ o.entered))) with
  | none => 0
  | some o => octetAt o.body 0

/-- R44: the holder mode: 0 FILLING, 1 EMPTYING, 2 FLOATING, 3 ISOLATED, 4 UNKNOWN. -/
def Sys2Proof.Claims.modePlace (states : Vector ValveState 7) : Nat :=
  let outlet := (states.toList.drop 1).any (· == .opened)
  if states.toList.any (fun x => x == .moving || x == .fault || x == .unknown) then 4
  else if states[0] = .opened then (if outlet then 2 else 0)
  else if outlet then 1
  else 3

/-- ROUTING: the two states valve by valve (log 44); the closure sequence with its count, and the valve in hand (log 9). -/
def Sys2Proof.Claims.routingShown (h : Nat) (q : Routing) (s : State) : List Byte :=
  let confirmed := fun x : ValveState => if x = .unknown then unlisted .confirmedValve 4
    else num 1 ([ValveState.closed, .opened, .moving, .fault].idxOf x)
  let ordered := fun v => unlisted .orderedValve ((s.holder h).elim 0 (fun r => orderedPlace r.valveStation v s))
  (q.confirmed.toList.zipIdx.flatMap (fun x => confirmed x.1 ++ ordered x.2))
    ++ unlisted .holderMode (modePlace q.confirmed) ++ q.outletSet.toList.flatMap yes
    ++ num 2 q.sequence.length ++ q.sequence.flatMap (fun c => num 1 c.valve ++ yes c.forced)
    ++ numOr 1 (if q.inHand = none then none else q.sequence.head?.map (·.valve))

/-- R61: an order record; the body is preceded by its length (log 9), and sends made is a number (log 42). -/
def Sys2Proof.Claims.orderShown (o : Order) : List Byte :=
  num 1 (if o.origin = .office then 0 else 1) ++ num 1 o.station ++ num 1 o.body.length ++ o.body
    ++ numOr 1 (o.body.head?.map (·.toNat)) ++ numOr 2 (if 3 ≤ o.body.length then some (field o.body 1 2) else none)
    ++ num 1 o.sends

/-- A branch; UNHEARD has none. -/
def Sys2Proof.Claims.branchShown (b : Option Branch) : List Byte := unlisted .branch ([none, some .n, some .s].idxOf b)

/-- STATION: the fields of R121, the slot, the pending list with its count. The order fields of an EMPTY slot are absent
(log 9); the forms of the times are log 42. -/
def Sys2Proof.Claims.stationShown (e : Station) (s : State) : List Byte :=
  let slot : Nat × Timer := match e.slot with
    | .empty => (0, .stopped)
    | .bufferWait _ => (1, .stopped)
    | .onLine _ _ _ => (2, .stopped)
    | .awaitingReply _ d => (3, .running d)
  num 1 e.address
    ++ num 1 ([StationKind.holder, .governor, .meter, .telltale, .calorimeter, .general].idxOf e.kind)
    ++ num 1 e.linked ++ num 2 e.waitingTime ++ num 2 e.replyTime ++ branchShown e.branch
    ++ unlisted .liveness ([Liveness.unheard, .live, .silent].idxOf e.liveness)
    ++ numOr 4 e.lastHeard ++ num 2 e.migrations ++ timeLeft s 0 e.waitingTimer ++ unlisted .slotPhase slot.1
    ++ e.slot.order?.elim (absent 7) orderShown ++ timeLeft s 1 slot.2
    ++ num 2 e.pendingList.length ++ e.pendingList.flatMap orderShown

/-- R127: STRANGERS. -/
def Sys2Proof.Claims.strangersShown (s : State) : List Byte :=
  num 2 s.strangers.length ++ s.strangers.zipIdx.flatMap (fun x =>
    num 1 x.1.address ++ branchShown (some x.1.branch) ++ num 2 x.1.telegrams ++ numOr 4 x.1.lastHeard
      ++ timeLeft s x.2 x.1.agingTimer)

/-- R79, R80: DISTRICT, the profiles after the other fields, each with its count, and the fog expiry last (logs 9, 42). -/
def Sys2Proof.Claims.districtShown (d : Nat) (r : District) (s : State) : List Byte :=
  let profile := fun bs : List Breakpoint =>
    num 2 bs.length ++ bs.flatMap (fun b => num 2 b.minute ++ num 2 b.pressure)
  num 1 d ++ num 1 r.governor
    ++ [r.minimum, r.maximum, r.drop, r.stepPeriod, r.slew, r.deadband].flatMap (fun v : Nat => num 2 v)
    ++ numOr 1 r.outletMeter ++ num 4 r.kneeRate ++ num 2 r.loadFactor ++ num 2 r.raiseCap
    ++ numOr 1 r.tellTalePoint ++ num 2 r.tellTaleMinimum ++ num 1 r.gain ++ num 2 r.decay ++ num 2 r.correctionCap
    ++ modeShown r.mode ++ yes r.nextPending ++ num 2 r.generation ++ numOr 2 r.active ++ numOr 2 r.lastSent
    ++ numOr 2 r.lastTarget ++ num 2 r.correction ++ num 2 r.fogRaise ++ num 2 r.supplyLimit ++ yes (!r.supplied)
    ++ yes r.setFailed ++ numOr 2 r.reportedSetpoint ++ markShown r.releasedMark ++ timeLeft s 0 r.stepTimer
    ++ profile r.activeProfile ++ profile r.nextProfile ++ timeLeft s 1 r.fogTimer

/-- R105: unclocked standard volume, energy and flags; the flags are COUNT-GAP, CV-DECLARED, CORRECTION-DEGRADED. -/
def Sys2Proof.Claims.unclockedShown (volume energy : Nat) (f : HourFlags) : List Byte :=
  num 5 volume ++ num 6 energy ++ flagSet [f.countGap, f.cvDeclared, f.correctionDegraded]

/-- R105: METER. -/
def Sys2Proof.Claims.meterShown (m : Nat) (r : Meter) : List Byte :=
  let target := match r.target with
    | .outlet d => num 1 0 ++ num 1 d ++ absent 1
    | .make k => num 1 1 ++ absent 1 ++ num 1 k
  num 1 m ++ target ++ num 1 r.countPoint ++ numOr 1 r.periodPoint ++ numOr 1 r.pressurePoint ++ num 2 r.fixedPressure
    ++ numOr 1 r.temperaturePoint ++ num 4 r.pulseWeight ++ num 2 r.deltaLimit ++ num 2 r.lastCount ++ yes r.lastCountValid
    ++ num 4 r.rate ++ unclockedShown r.unclockedVolume r.unclockedEnergy r.unclockedFlags

/-- CLOCK: the unclocked sums and flags meter by meter (log 44); those of an empty Meter Record hold nothing (R100). -/
def Sys2Proof.Claims.clockShown (s : State) : List Byte :=
  unlisted .clockState (if s.clock.valid then 1 else 0) ++ num 2 s.clock.dayCount ++ num 4 s.clock.timeOfDay
    ++ yes s.clock.setMark ++ s.meters.toList.flatMap (fun m =>
      m.elim (unclockedShown 0 0 HourFlags.clear) (fun r =>
        unclockedShown r.unclockedVolume r.unclockedEnergy r.unclockedFlags))

/-- HOUR: the six district records, then make and stock, as HOUR-CLOSE content (log 9). -/
def Sys2Proof.Claims.hourRead (b : DayBook) (n : Nat) (r : Hour) : List Byte :=
  (r.districts.toList.zipIdx 1).flatMap (fun x => districtHourShown b.gasDay n x.2 r.state x.1)
    ++ makeStockShown b.gasDay n r

/-- PORT: the lengths of the queues are numbers (log 42). -/
def Sys2Proof.Claims.portShown (p : Port) (s : State) : List Byte :=
  let q := s.port p
  let receiver := match q.receiver with
    | .idle => 0
    | .receiving _ _ _ _ => 1
    | .discarding _ => 2
  let transmitter := match q.transmitter with
    | .idle => 0
    | .sending _ => 1
    | .separating => 2
  [q.good, q.bad, q.dropped, q.sent].flatMap (fun v : Nat => num 4 v)
    ++ unlisted .lastFault ([LineFault.none, .badLength, .badCheck, .badKind, .badAddress].idxOf q.lastFault)
    ++ unlisted .receiver receiver ++ unlisted .transmitter transmitter ++ num 2 (s.line.charge p)
    ++ num 1 q.urgent.length ++ num 1 q.routine.length ++ num 2 q.runCount

/-- POOL: the free buffers and the length of the claim list are numbers (log 42). -/
def Sys2Proof.Claims.poolShown (s : State) : List Byte :=
  num 1 s.line.freeGeneral ++ num 1 s.line.freeReserve ++ num 1 s.claims.length
    ++ unlisted .holding (if s.line.holding = .holding then 1 else 0) ++ timeLeft s 0 s.line.repeatTimer

/-- R170: the content of a selector and item; none where the record, entry or book named is empty. -/
def Sys2Proof.Claims.contentOf (selector item : Nat) (s : State) : Option (List Byte) :=
  match selector with
  | 1 => some (settingsShown s.settings)
  | 2 => (s.point item).map (pointShown item)
  | 3 => some (s.vapour.toList.flatMap (numOr 2))
  | 4 => some (localShown s)
  | 5 => (s.holder item).map (holderRecordShown item)
  | 6 => (s.routing item).map (fun q => routingShown item q s)
  | 7 => (s.station item).map (fun e => stationShown e s)
  | 8 => some (strangersShown s)
  | 9 => (s.district item).map (fun r => districtShown item r s)
  | 10 => (s.meter item).map (meterShown item)
  | 11 => some (clockShown s)
  | 12 => (if item = 0 then s.currentBook else s.previousBook).map (fun b =>
      (dayShown b).flatten ++ b.hours.toList.flatMap (fun r => numOr 5 r.endStock))
  | 13 =>
    let n := if item < 64 then item else item - 64
    (if item < 64 then s.currentBook else s.previousBook).bind (fun b => (b.hours[n]?).map (hourRead b n))
  | 14 => some (portShown (if item = 0 then .o else if item = 1 then .n else .s) s)
  | 15 => some (poolShown s)
  | 16 => some (num 2 s.alarms.length ++ yes s.alarmOverflow
      ++ s.alarms.flatMap (fun r => alarmShown r (alarmStateCode r) ++ yes r.reportOwed))
  | 17 => some (num 2 s.backlog.length ++ yes s.backlogOverflow
      ++ s.backlog.flatMap (fun e => num 1 (reportOf s e.form).kind))
  | 18 => some (num 1 ([RestartCause.power, .cold, .warm].idxOf s.lastCause))
  | _ => none

/-- R166, R170: READ answers the part of the content it names, 54 octets to a part, and changes nothing but the backlog
overflow flag, which a READ of the backlog clears (and the model's count of free values, log 8). The contents are those of
R170 in the forms of R149. Of the model's reading or choosing: their layouts where R170 lists fields or records (logs 9 and
44) and the forms that R149 does not name (log 42); what no form holds is free (log 10), as are the unlisted codes (log 32)
and the times remaining (logs 8 and 45). -/
def Obligations.ReadActs : Prop :=
  ∀ (f : List Byte) (r : Received) (s u : State), Requested 19 f r s u →
    let selector := octetAt f 0
    let item := octetAt f 1
    let part := octetAt f 2
    let answer := fun result data v => exec .read s = .next (answered r 19 result data v)
    let formatted := f.length = 3 ∧ 1 ≤ selector ∧ selector ≤ 18
    (¬ formatted → answer .badFormat [] u) ∧
    (formatted → ¬ (itemFits selector item ∧ 1 ≤ part) → answer .outOfRange [] u) ∧
    (formatted → itemFits selector item → 1 ≤ part →
      match contentOf selector item u with
      | none => answer .unknownItem [] u
      | some content =>
        let parts := max 1 ((content.length + 53) / 54)
        if parts < part then answer .unknownItem [] u
        else answer .accepted (num 1 part ++ num 1 parts ++ (content.drop (54 * (part - 1))).take 54)
          { u with backlogOverflow := if selector = 17 then false else u.backlogOverflow, freeCount := u.freeCount + 8 })

/-- R162: the subjects of a kind. -/
def Sys2Proof.Claims.subjectFits (k : AlarmKind) (subject : Nat) : Prop :=
  if k.code ≤ 7 ∨ k = .meterJump then 1 ≤ subject ∧ subject ≤ 8
  else if k.code ≤ 10 then 1 ≤ subject ∧ subject ≤ 6
  else if k = .dayOverwritten then subject = 0
  else 1 ≤ subject ∧ subject ≤ 239

/-- R165: ACK-ALARM acknowledges the record it names when the count it carries is the record's, and removes one that is
CLEARED-UNACKED or of STATION-MOVED; no report is owed. An entry that refers to a removed record is turned full (R166). -/
def Obligations.AckAlarmActs : Prop :=
  ∀ (f : List Byte) (r : Received) (s u : State), Requested 20 f r s u →
    let answer := fun result v => exec .ackAlarm s = .next (answered r 20 result [] v)
    (f.length ≠ 4 ∨ alarmKindOf (octetAt f 0) = none → answer .badFormat u) ∧
    ∀ kind, f.length = 4 → alarmKindOf (octetAt f 0) = some kind →
      let key : AlarmKey := ⟨kind, octetAt f 1, if kind = .closeFailed then some (octetAt f 2) else none⟩
      let fits := subjectFits kind (octetAt f 1) ∧ (kind = .closeFailed → octetAt f 2 ≤ 6) ∧ octetAt f 3 ≠ 0
      (¬ fits → answer .outOfRange u) ∧
      (fits → findAlarm key u = none → answer .unknownItem u) ∧
      ∀ q, fits → findAlarm key u = some q →
        if q.count ≠ octetAt f 3 then answer .staleAck u
        else if q.state = .clearedUnacked ∨ kind = .stationMoved then
          ∃ v, answer .accepted v ∧ v = { u with
            alarms := u.alarms.filter (fun x => x.key != key)
            alarmOverflow := u.alarmOverflow && decide (32 ≤ v.alarms.length)
            backlog := u.backlog.map (fun e =>
              if e.form = .reference (.alarm key) then { e with form := .full (.removedAlarm q) } else e) }
        else answer .accepted { u with alarms := u.alarms.map (fun x =>
          if x.key = key then { x with acknowledged := true } else x) }

/-- R173: an accepted RESET holds the kind of restart and enters RESET-PENDING, its timer running; nothing else changes. -/
def Obligations.ResetActs : Prop :=
  ∀ (f : List Byte) (r : Received) (s u : State), Requested 21 f r s u →
    let answer := fun result v => exec .reset s = .next (answered r 21 result [] v)
    if f.length ≠ 1 ∨ 1 < octetAt f 0 then answer .badFormat u
    else answer .accepted { u with unit := .resetPending (if octetAt f 0 = 0 then .warm else .cold) }

/-! ### Stock Reckoning (R30, R33) -/

/-- R28: the barometer as it stands, and whether a fallback is recorded. -/
def Sys2Proof.Claims.barometerOf (s : State) : Int × Bool :=
  match valueWithin s.settings.barometerPoint 85000 110000 s with
  | some v => (v, false)
  | none => (101325, true)

/-- R12: the vapour pressure at t and the incomplete mark. An empty entry reads 0; with no hundredths entry i + 1 is not
read (note 1). -/
def Sys2Proof.Claims.vapourAt (t : Int) (s : State) : Int × Bool :=
  let t := (max 0 (min 4000 t)).toNat
  let i := t / 100
  let f := t - 100 * i
  let entry := fun k : Nat => (s.vapour[k]?).join
  let value := fun k : Nat => (entry k).getD 0
  if t = 4000 then (value 40, (entry 40).isNone)
  else
    (((2 * (value i * (100 - f) + value (i + 1) * f) + 100) / 200 : Nat),
      (entry i).isNone || decide (f ≠ 0) && (entry (i + 1)).isNone)

/-- R30: the standard correction, for every value its rule gives ranges for: the quotient formed exactly and rounded once,
and the fallbacks of the barometer (R28) and the vapour lookup (R12) recorded. -/
def Obligations.StandardCorrectionRounds : Prop :=
  State.reset.settings.barometerPoint = none ∧
  ∀ (v : Nat) (p t : Int) (s : State), 0 ≤ p → p ≤ 10000 → -2000 ≤ t → t ≤ 5000 →
    (∀ (i x : Nat), s.vapour[i]? = some (some x) → x ≤ 10000) →
    let b := barometerOf s
    let e := vapourAt t s
    let numerator : Int := v * (b.1 + p - e.1) * 28815
    let denominator : Int := 101325 * (27315 + t)
    (85000 ≤ b.1 ∧ b.1 ≤ 110000) ∧ (0 ≤ e.1 ∧ e.1 ≤ 10000) ∧ 75000 ≤ b.1 + p - e.1 ∧ 101325 * 25315 ≤ denominator ∧
      0 ≤ numerator ∧
      ((standardCorrection v p t s).1 : Int) = (2 * numerator + denominator) / (2 * denominator) ∧
      (standardCorrection v p t s).2 = (b.2 || e.2)

/-- R23: a point update at a holder that is IN, in its gauge role and then in its pressure role (that order is log 14). -/
def Sys2Proof.Claims.holderUpdated (u : PointUpdate) (r : Holder) (k : Nat) (s : State) : State :=
  let t :=
    if r.gaugePoint ≠ u.number then s
    else if u.fromEntry = true then
      match u.quality, u.value with
      | .good, some g => reckoningTaken k g s
      | .failed, _ => blindTaken k s
      | _, _ => s
    else if u.quality = .stale ∨ u.quality = .none then blindTaken k s
    else s
  match t.holder k with
  | none => t
  | some q =>
    let p := (pressureAt q q.stage t).1
    if r.pressurePoint = some u.number ∧ p ≠ q.pressure then supplyRecomputed (t.putHolder k { q with pressure := p }) else t

/-- R24 to R37: each reckoning takes the condition from the clamped rise, the marks, the hysteresis and the condition held
(R33). At a holder whose lift table is complete, as at every one that HOLDER-SERVICE brought IN (R39), it writes rise, stage,
actual volume, pressure, stock and quality (R24 to R31) and acts in the order of R31: yard stock (R32), OVER-TOP, the end
of blindness (R37), the change of condition (R34), the hand-over to the Pressure Scheduler. A point update reckons, makes
blind (R36) or forms the holder pressure (R27) by its role (R23), the gauge role first (log 14). Of the model's reading or
choosing in these actions: an entry of a closure sequence keeps the cause that added it (log 15); BLIND and the outlets
(log 33); a head taken waits for ORDER_SEND (log 4); a supply state acts before the clamp (log 28), and a SET is told by its
code (log 20). -/
def Obligations.ReckoningTakesCondition : Prop :=
  (∀ (k : Nat) (g : Int) (s : State) (r : Holder), s.holder k = some r →
    (∃ q, (reckon k g s).holder k = some q ∧ q.condition = conditionBy r (min r.topRise g.toNat)) ∧
    (tableComplete r → reckon k g s = reckoningTaken k g s)) ∧
  ∀ (u : PointUpdate) (k : Nat) (s : State) (r : Holder), s.holder k = some r → tableComplete r →
    holderUpdate u s k = if r.inReckoning = true then holderUpdated u r k s else s

/-! ### Invariants -/

/-- R150, R152: every step conserves the buffers and the charges. -/
def Obligations.BuffersStayConserved : Prop :=
  ∀ s t : State, step s = .next t → BuffersConserved s → BuffersConserved t

/-- R162, R166: every step keeps the Alarm List and the Report Backlog within bounds, distinct, and agreeing. -/
def Obligations.RecordsStayConsistent : Prop :=
  ∀ s t : State, step s = .next t → RecordsConsistent s → RecordsConsistent t

/-- R61, R120, R127: every step keeps the directory, the stranger list and the pending lists within bounds, and addresses
distinct. -/
def Obligations.DirectoryStaysConsistent : Prop :=
  ∀ s t : State, step s = .next t → DirectoryConsistent s → DirectoryConsistent t

/-- R50: after every step no order in the Order Unit opens a valve that its holder's state forbids. For a blind holder's
outlets it follows R50 and R60, where R51's table names the inlet alone (log 33). -/
def Obligations.OpensStayAllowed : Prop :=
  ∀ s t : State, step s = .next t → OpensAllowed s → OpensAllowed t

/-- R92: after every step the active setpoint of a district in AUTO exceeds neither its maximum nor its supply limit. -/
def Obligations.ActiveStaysWithinLimits : Prop :=
  ∀ s t : State, step s = .next t → ActiveWithinLimits s → ActiveWithinLimits t

/-- R113, R116: every step keeps exactly one hour open while the clock is VALID, none in the previous book, and the two
books' stocks equal. -/
def Obligations.HoursStayConsistent : Prop :=
  ∀ s t : State, step s = .next t → HoursConsistent s → HoursConsistent t

/-- Every invariant holds after reset. -/
def Obligations.ResetIsConsistent : Prop :=
  BuffersConserved State.reset ∧ RecordsConsistent State.reset ∧ DirectoryConsistent State.reset ∧
    OpensAllowed State.reset ∧ ActiveWithinLimits State.reset ∧ HoursConsistent State.reset
end

