-- ==== Sys2Proof/Laws/Outcomes.lean ====
section
/-! SUPPORT. What a command's outcome is: when an arrival acts, when it leaves the state, and what a request answers. -/

namespace Sys2Proof.Laws

open Sys2Proof.Machine

theorem whenArises_acts {b : Bool} (act : State → State) (s : State) (h : b = true) :
    whenArises b act s = .next (act s) := by simp [whenArises, h]

theorem whenArises_leaves {b : Bool} (act : State → State) (s : State) (h : b = false) :
    whenArises b act s = .next s := by simp [whenArises, h]

/-- An arrival that arises outside a restart acts. -/
theorem arrival_acts {arises : State → Bool} {act : State → State} {s : State} (hr : isRestarting s = false)
    (h : arises s = true) : arrival arises act s = .next (act s) := by
  simp [arrival, whenArises, hr, h]

/-- An arrival leaves the state during a restart. -/
theorem arrival_restarting {arises : State → Bool} {act : State → State} {s : State} (hr : isRestarting s = true) :
    arrival arises act s = .next s := by simp [arrival, whenArises, hr]

/-- An arrival either acts, where it arises outside a restart, or leaves the state. -/
theorem arrival_cases {arises : State → Bool} {act : State → State} {s t : State} (h : arrival arises act s = .next t) :
    t = s ∨ isRestarting s = false ∧ arises s = true ∧ t = act s := by
  unfold arrival whenArises at h
  split at h
  · rename_i hc
    simp only [Bool.and_eq_true, Bool.not_eq_true'] at hc
    exact .inr ⟨hc.1, hc.2, (Host.Outcome.next.inj h).symm⟩
  · exact .inl (Host.Outcome.next.inj h).symm

theorem isRestarting_of_ready {s : State} (h : s.unit = .ready) : isRestarting s = false := by simp [isRestarting, h]

theorem requestCode_of {code : Nat} (h1 : 1 ≤ code) (h2 : code ≤ 21) (f : List Byte) :
    requestCode (octet code :: f) = some code := by
  have : (octet code).toNat = code := by
    simp only [octet, BitVec.toNat_ofNat]
    omega
  simp [requestCode, this, h1, h2]

/-- A request that stands first in reception is performed and answered. -/
theorem request_answers {code : Nat} (h1 : 1 ≤ code) (h2 : code ≤ 21) {f : List Byte} {r : Received} {s u : State}
    (h : Requested code f r s u) (perform : List Byte → State → Performed) :
    request code perform s
      = .next (answered r code (perform f u).result (perform f u).data (perform f u).state) := by
  have hf : ∃ rest, firstOfPort .o s.line.received = some (r, rest) := by
    have ht := h.taken
    unfold takeReceived at ht
    cases hx : firstOfPort .o s.line.received with
    | none => simp [hx] at ht
    | some x =>
      simp only [hx, Option.map_some, Option.some.injEq, Prod.mk.injEq] at ht
      exact ⟨x.2, by rw [← ht.1]⟩
  obtain ⟨rest, hf⟩ := hf
  unfold request
  rw [arrival_acts (isRestarting_of_ready h.ready)]
  · simp only [answerRequest, h.taken, h.body, answered, List.drop_succ_cons, List.drop_zero]
  · simp [requestWaits, isReady, h.ready, hf, h.kind, h.destination, h.body, requestCode_of h1 h2]

/-- A check that fails gives its result, and the state stays. -/
theorem judge_fails {checks : List (Bool × ResultCode)} {result : ResultCode} (h : firstFailure checks = some result)
    (act : State → State) (s : State) : judge checks act s = ⟨result, [], s⟩ := by simp [judge, h]

/-- With no check failing the request is accepted and performed. -/
theorem judge_accepts {checks : List (Bool × ResultCode)} (h : firstFailure checks = none) (act : State → State)
    (s : State) : judge checks act s = ⟨.accepted, [], act s⟩ := by simp [judge, h]

@[simp] theorem firstFailure_nil : firstFailure [] = none := rfl

@[simp] theorem firstFailure_cons (b : Bool) (r : ResultCode) (rest : List (Bool × ResultCode)) :
    firstFailure ((b, r) :: rest) = if b = true then some r else firstFailure rest := rfl

/-- Every command answers a next state. -/
theorem exec_next (c : Instr) (s : State) : ∃ t, exec c s = .next t := by
  cases c <;> exact ⟨_, rfl⟩

end Sys2Proof.Laws
end

