-- ==== Sys2Proof/Laws/State.lean ====
section
/-! SUPPORT. What each write of a record or entry does to every field and every look-up of the state. -/

namespace Sys2Proof.Laws

open Sys2Proof.Machine

/-! ### Tables -/

section Tables

variable {α : Type} {n : Nat}

theorem tableGet_tableSet (t : Vector (Option α) n) (i j : Nat) (x : Option α) :
    tableGet (tableSet t i x) j = if i = j ∧ i < n then x else tableGet t j := by
  unfold tableGet tableSet
  rw [Vector.getElem?_setIfInBounds]
  split <;> rename_i h
  · subst h
    split <;> rename_i h
    · simp [h]
    · simp [h]
  · simp [h]

/-- A record written is read back under its number; the other numbers read as before. -/
theorem recordGet_recordSet (t : Vector (Option α) n) (i j : Nat) (x : Option α) :
    recordGet (recordSet t i x) j = if i = j ∧ 1 ≤ i ∧ i ≤ n then x else recordGet t j := by
  cases i with
  | zero => simp [recordSet]
  | succ i =>
    cases j with
    | zero => simp [recordGet]
    | succ j =>
      simp only [recordSet, recordGet, tableGet_tableSet, Nat.add_right_cancel_iff]
      congr 1
      simp only [eq_iff_iff]
      omega

end Tables

/-- The entry of an address, in a list with the entries of one address changed by a function that keeps addresses. -/
theorem find?_map_address (l : List Station) (a k : Nat) (f : Station → Station)
    (hf : ∀ e, (f e).address = e.address) :
    (l.map (fun e => if e.address == a then f e else e)).find? (fun e => e.address == k)
      = (l.find? (fun e => e.address == k)).map (fun e => if e.address == a then f e else e) := by
  rw [List.find?_map]
  congr 2
  funext e
  simp only [Function.comp]
  split <;> simp [hf]

variable (s : State)

/-! ### putPoint -/

section putPoint

variable (n : Nat) (x : Option Point)

@[simp] theorem putPoint_pending : (s.putPoint n x).pending = s.pending := rfl
@[simp] theorem putPoint_unit : (s.putPoint n x).unit = s.unit := rfl
@[simp] theorem putPoint_lastCause : (s.putPoint n x).lastCause = s.lastCause := rfl
@[simp] theorem putPoint_settings : (s.putPoint n x).settings = s.settings := rfl
@[simp] theorem putPoint_line : (s.putPoint n x).line = s.line := rfl
@[simp] theorem putPoint_claims : (s.putPoint n x).claims = s.claims := rfl
@[simp] theorem putPoint_directory : (s.putPoint n x).directory = s.directory := rfl
@[simp] theorem putPoint_strangers : (s.putPoint n x).strangers = s.strangers := rfl
@[simp] theorem putPoint_vapour : (s.putPoint n x).vapour = s.vapour := rfl
@[simp] theorem putPoint_localConverter : (s.putPoint n x).localConverter = s.localConverter := rfl
@[simp] theorem putPoint_holders : (s.putPoint n x).holders = s.holders := rfl
@[simp] theorem putPoint_yardStock : (s.putPoint n x).yardStock = s.yardStock := rfl
@[simp] theorem putPoint_routings : (s.putPoint n x).routings = s.routings := rfl
@[simp] theorem putPoint_districts : (s.putPoint n x).districts = s.districts := rfl
@[simp] theorem putPoint_outletSets : (s.putPoint n x).outletSets = s.outletSets := rfl
@[simp] theorem putPoint_clock : (s.putPoint n x).clock = s.clock := rfl
@[simp] theorem putPoint_meters : (s.putPoint n x).meters = s.meters := rfl
@[simp] theorem putPoint_currentBook : (s.putPoint n x).currentBook = s.currentBook := rfl
@[simp] theorem putPoint_previousBook : (s.putPoint n x).previousBook = s.previousBook := rfl
@[simp] theorem putPoint_alarms : (s.putPoint n x).alarms = s.alarms := rfl
@[simp] theorem putPoint_alarmOverflow : (s.putPoint n x).alarmOverflow = s.alarmOverflow := rfl
@[simp] theorem putPoint_backlog : (s.putPoint n x).backlog = s.backlog := rfl
@[simp] theorem putPoint_backlogOverflow : (s.putPoint n x).backlogOverflow = s.backlogOverflow := rfl
@[simp] theorem putPoint_serial : (s.putPoint n x).serial = s.serial := rfl
@[simp] theorem putPoint_freeCount : (s.putPoint n x).freeCount = s.freeCount := rfl
@[simp] theorem putPoint_holder (k : Nat) : (s.putPoint n x).holder k = s.holder k := rfl
@[simp] theorem putPoint_routing (k : Nat) : (s.putPoint n x).routing k = s.routing k := rfl
@[simp] theorem putPoint_district (k : Nat) : (s.putPoint n x).district k = s.district k := rfl
@[simp] theorem putPoint_meter (k : Nat) : (s.putPoint n x).meter k = s.meter k := rfl
@[simp] theorem putPoint_station (k : Nat) : (s.putPoint n x).station k = s.station k := rfl
@[simp] theorem putPoint_stranger (k : Nat) : (s.putPoint n x).stranger k = s.stranger k := rfl
@[simp] theorem putPoint_port (k : Port) : (s.putPoint n x).port k = s.port k := rfl
@[simp] theorem putPoint_timeNow : (s.putPoint n x).timeNow = s.timeNow := rfl

end putPoint

theorem putPoint_point (n k : Nat) (x : Option Point) :
    (s.putPoint n x).point k = if n = k ∧ n < 192 then x else s.point k := tableGet_tableSet _ _ _ _

/-! ### putHolder -/

section putHolder

variable (h : Nat) (x : Holder)

@[simp] theorem putHolder_pending : (s.putHolder h x).pending = s.pending := rfl
@[simp] theorem putHolder_unit : (s.putHolder h x).unit = s.unit := rfl
@[simp] theorem putHolder_lastCause : (s.putHolder h x).lastCause = s.lastCause := rfl
@[simp] theorem putHolder_settings : (s.putHolder h x).settings = s.settings := rfl
@[simp] theorem putHolder_line : (s.putHolder h x).line = s.line := rfl
@[simp] theorem putHolder_claims : (s.putHolder h x).claims = s.claims := rfl
@[simp] theorem putHolder_directory : (s.putHolder h x).directory = s.directory := rfl
@[simp] theorem putHolder_strangers : (s.putHolder h x).strangers = s.strangers := rfl
@[simp] theorem putHolder_points : (s.putHolder h x).points = s.points := rfl
@[simp] theorem putHolder_vapour : (s.putHolder h x).vapour = s.vapour := rfl
@[simp] theorem putHolder_localConverter : (s.putHolder h x).localConverter = s.localConverter := rfl
@[simp] theorem putHolder_yardStock : (s.putHolder h x).yardStock = s.yardStock := rfl
@[simp] theorem putHolder_routings : (s.putHolder h x).routings = s.routings := rfl
@[simp] theorem putHolder_districts : (s.putHolder h x).districts = s.districts := rfl
@[simp] theorem putHolder_outletSets : (s.putHolder h x).outletSets = s.outletSets := rfl
@[simp] theorem putHolder_clock : (s.putHolder h x).clock = s.clock := rfl
@[simp] theorem putHolder_meters : (s.putHolder h x).meters = s.meters := rfl
@[simp] theorem putHolder_currentBook : (s.putHolder h x).currentBook = s.currentBook := rfl
@[simp] theorem putHolder_previousBook : (s.putHolder h x).previousBook = s.previousBook := rfl
@[simp] theorem putHolder_alarms : (s.putHolder h x).alarms = s.alarms := rfl
@[simp] theorem putHolder_alarmOverflow : (s.putHolder h x).alarmOverflow = s.alarmOverflow := rfl
@[simp] theorem putHolder_backlog : (s.putHolder h x).backlog = s.backlog := rfl
@[simp] theorem putHolder_backlogOverflow : (s.putHolder h x).backlogOverflow = s.backlogOverflow := rfl
@[simp] theorem putHolder_serial : (s.putHolder h x).serial = s.serial := rfl
@[simp] theorem putHolder_freeCount : (s.putHolder h x).freeCount = s.freeCount := rfl
@[simp] theorem putHolder_point (k : Nat) : (s.putHolder h x).point k = s.point k := rfl
@[simp] theorem putHolder_routing (k : Nat) : (s.putHolder h x).routing k = s.routing k := rfl
@[simp] theorem putHolder_district (k : Nat) : (s.putHolder h x).district k = s.district k := rfl
@[simp] theorem putHolder_meter (k : Nat) : (s.putHolder h x).meter k = s.meter k := rfl
@[simp] theorem putHolder_station (k : Nat) : (s.putHolder h x).station k = s.station k := rfl
@[simp] theorem putHolder_stranger (k : Nat) : (s.putHolder h x).stranger k = s.stranger k := rfl
@[simp] theorem putHolder_port (k : Port) : (s.putHolder h x).port k = s.port k := rfl
@[simp] theorem putHolder_timeNow : (s.putHolder h x).timeNow = s.timeNow := rfl

end putHolder

theorem putHolder_holder (n k : Nat) (x : Holder) :
    (s.putHolder n x).holder k = if n = k ∧ 1 ≤ n ∧ n ≤ 8 then some x else s.holder k :=
  recordGet_recordSet _ _ _ _

/-! ### putRouting -/

section putRouting

variable (h : Nat) (x : Routing)

@[simp] theorem putRouting_pending : (s.putRouting h x).pending = s.pending := rfl
@[simp] theorem putRouting_unit : (s.putRouting h x).unit = s.unit := rfl
@[simp] theorem putRouting_lastCause : (s.putRouting h x).lastCause = s.lastCause := rfl
@[simp] theorem putRouting_settings : (s.putRouting h x).settings = s.settings := rfl
@[simp] theorem putRouting_line : (s.putRouting h x).line = s.line := rfl
@[simp] theorem putRouting_claims : (s.putRouting h x).claims = s.claims := rfl
@[simp] theorem putRouting_directory : (s.putRouting h x).directory = s.directory := rfl
@[simp] theorem putRouting_strangers : (s.putRouting h x).strangers = s.strangers := rfl
@[simp] theorem putRouting_points : (s.putRouting h x).points = s.points := rfl
@[simp] theorem putRouting_vapour : (s.putRouting h x).vapour = s.vapour := rfl
@[simp] theorem putRouting_localConverter : (s.putRouting h x).localConverter = s.localConverter := rfl
@[simp] theorem putRouting_holders : (s.putRouting h x).holders = s.holders := rfl
@[simp] theorem putRouting_yardStock : (s.putRouting h x).yardStock = s.yardStock := rfl
@[simp] theorem putRouting_districts : (s.putRouting h x).districts = s.districts := rfl
@[simp] theorem putRouting_outletSets : (s.putRouting h x).outletSets = s.outletSets := rfl
@[simp] theorem putRouting_clock : (s.putRouting h x).clock = s.clock := rfl
@[simp] theorem putRouting_meters : (s.putRouting h x).meters = s.meters := rfl
@[simp] theorem putRouting_currentBook : (s.putRouting h x).currentBook = s.currentBook := rfl
@[simp] theorem putRouting_previousBook : (s.putRouting h x).previousBook = s.previousBook := rfl
@[simp] theorem putRouting_alarms : (s.putRouting h x).alarms = s.alarms := rfl
@[simp] theorem putRouting_alarmOverflow : (s.putRouting h x).alarmOverflow = s.alarmOverflow := rfl
@[simp] theorem putRouting_backlog : (s.putRouting h x).backlog = s.backlog := rfl
@[simp] theorem putRouting_backlogOverflow : (s.putRouting h x).backlogOverflow = s.backlogOverflow := rfl
@[simp] theorem putRouting_serial : (s.putRouting h x).serial = s.serial := rfl
@[simp] theorem putRouting_freeCount : (s.putRouting h x).freeCount = s.freeCount := rfl
@[simp] theorem putRouting_point (k : Nat) : (s.putRouting h x).point k = s.point k := rfl
@[simp] theorem putRouting_holder (k : Nat) : (s.putRouting h x).holder k = s.holder k := rfl
@[simp] theorem putRouting_district (k : Nat) : (s.putRouting h x).district k = s.district k := rfl
@[simp] theorem putRouting_meter (k : Nat) : (s.putRouting h x).meter k = s.meter k := rfl
@[simp] theorem putRouting_station (k : Nat) : (s.putRouting h x).station k = s.station k := rfl
@[simp] theorem putRouting_stranger (k : Nat) : (s.putRouting h x).stranger k = s.stranger k := rfl
@[simp] theorem putRouting_port (k : Port) : (s.putRouting h x).port k = s.port k := rfl
@[simp] theorem putRouting_timeNow : (s.putRouting h x).timeNow = s.timeNow := rfl

end putRouting

theorem putRouting_routing (n k : Nat) (x : Routing) :
    (s.putRouting n x).routing k = if n = k ∧ 1 ≤ n ∧ n ≤ 8 then some x else s.routing k :=
  recordGet_recordSet _ _ _ _

/-! ### putDistrict -/

section putDistrict

variable (d : Nat) (x : District)

@[simp] theorem putDistrict_pending : (s.putDistrict d x).pending = s.pending := rfl
@[simp] theorem putDistrict_unit : (s.putDistrict d x).unit = s.unit := rfl
@[simp] theorem putDistrict_lastCause : (s.putDistrict d x).lastCause = s.lastCause := rfl
@[simp] theorem putDistrict_settings : (s.putDistrict d x).settings = s.settings := rfl
@[simp] theorem putDistrict_line : (s.putDistrict d x).line = s.line := rfl
@[simp] theorem putDistrict_claims : (s.putDistrict d x).claims = s.claims := rfl
@[simp] theorem putDistrict_directory : (s.putDistrict d x).directory = s.directory := rfl
@[simp] theorem putDistrict_strangers : (s.putDistrict d x).strangers = s.strangers := rfl
@[simp] theorem putDistrict_points : (s.putDistrict d x).points = s.points := rfl
@[simp] theorem putDistrict_vapour : (s.putDistrict d x).vapour = s.vapour := rfl
@[simp] theorem putDistrict_localConverter : (s.putDistrict d x).localConverter = s.localConverter := rfl
@[simp] theorem putDistrict_holders : (s.putDistrict d x).holders = s.holders := rfl
@[simp] theorem putDistrict_yardStock : (s.putDistrict d x).yardStock = s.yardStock := rfl
@[simp] theorem putDistrict_routings : (s.putDistrict d x).routings = s.routings := rfl
@[simp] theorem putDistrict_outletSets : (s.putDistrict d x).outletSets = s.outletSets := rfl
@[simp] theorem putDistrict_clock : (s.putDistrict d x).clock = s.clock := rfl
@[simp] theorem putDistrict_meters : (s.putDistrict d x).meters = s.meters := rfl
@[simp] theorem putDistrict_currentBook : (s.putDistrict d x).currentBook = s.currentBook := rfl
@[simp] theorem putDistrict_previousBook : (s.putDistrict d x).previousBook = s.previousBook := rfl
@[simp] theorem putDistrict_alarms : (s.putDistrict d x).alarms = s.alarms := rfl
@[simp] theorem putDistrict_alarmOverflow : (s.putDistrict d x).alarmOverflow = s.alarmOverflow := rfl
@[simp] theorem putDistrict_backlog : (s.putDistrict d x).backlog = s.backlog := rfl
@[simp] theorem putDistrict_backlogOverflow : (s.putDistrict d x).backlogOverflow = s.backlogOverflow := rfl
@[simp] theorem putDistrict_serial : (s.putDistrict d x).serial = s.serial := rfl
@[simp] theorem putDistrict_freeCount : (s.putDistrict d x).freeCount = s.freeCount := rfl
@[simp] theorem putDistrict_point (k : Nat) : (s.putDistrict d x).point k = s.point k := rfl
@[simp] theorem putDistrict_holder (k : Nat) : (s.putDistrict d x).holder k = s.holder k := rfl
@[simp] theorem putDistrict_routing (k : Nat) : (s.putDistrict d x).routing k = s.routing k := rfl
@[simp] theorem putDistrict_meter (k : Nat) : (s.putDistrict d x).meter k = s.meter k := rfl
@[simp] theorem putDistrict_station (k : Nat) : (s.putDistrict d x).station k = s.station k := rfl
@[simp] theorem putDistrict_stranger (k : Nat) : (s.putDistrict d x).stranger k = s.stranger k := rfl
@[simp] theorem putDistrict_port (k : Port) : (s.putDistrict d x).port k = s.port k := rfl
@[simp] theorem putDistrict_timeNow : (s.putDistrict d x).timeNow = s.timeNow := rfl

end putDistrict

theorem putDistrict_district (n k : Nat) (x : District) :
    (s.putDistrict n x).district k = if n = k ∧ 1 ≤ n ∧ n ≤ 6 then some x else s.district k :=
  recordGet_recordSet _ _ _ _

/-! ### putMeter -/

section putMeter

variable (m : Nat) (x : Meter)

@[simp] theorem putMeter_pending : (s.putMeter m x).pending = s.pending := rfl
@[simp] theorem putMeter_unit : (s.putMeter m x).unit = s.unit := rfl
@[simp] theorem putMeter_lastCause : (s.putMeter m x).lastCause = s.lastCause := rfl
@[simp] theorem putMeter_settings : (s.putMeter m x).settings = s.settings := rfl
@[simp] theorem putMeter_line : (s.putMeter m x).line = s.line := rfl
@[simp] theorem putMeter_claims : (s.putMeter m x).claims = s.claims := rfl
@[simp] theorem putMeter_directory : (s.putMeter m x).directory = s.directory := rfl
@[simp] theorem putMeter_strangers : (s.putMeter m x).strangers = s.strangers := rfl
@[simp] theorem putMeter_points : (s.putMeter m x).points = s.points := rfl
@[simp] theorem putMeter_vapour : (s.putMeter m x).vapour = s.vapour := rfl
@[simp] theorem putMeter_localConverter : (s.putMeter m x).localConverter = s.localConverter := rfl
@[simp] theorem putMeter_holders : (s.putMeter m x).holders = s.holders := rfl
@[simp] theorem putMeter_yardStock : (s.putMeter m x).yardStock = s.yardStock := rfl
@[simp] theorem putMeter_routings : (s.putMeter m x).routings = s.routings := rfl
@[simp] theorem putMeter_districts : (s.putMeter m x).districts = s.districts := rfl
@[simp] theorem putMeter_outletSets : (s.putMeter m x).outletSets = s.outletSets := rfl
@[simp] theorem putMeter_clock : (s.putMeter m x).clock = s.clock := rfl
@[simp] theorem putMeter_currentBook : (s.putMeter m x).currentBook = s.currentBook := rfl
@[simp] theorem putMeter_previousBook : (s.putMeter m x).previousBook = s.previousBook := rfl
@[simp] theorem putMeter_alarms : (s.putMeter m x).alarms = s.alarms := rfl
@[simp] theorem putMeter_alarmOverflow : (s.putMeter m x).alarmOverflow = s.alarmOverflow := rfl
@[simp] theorem putMeter_backlog : (s.putMeter m x).backlog = s.backlog := rfl
@[simp] theorem putMeter_backlogOverflow : (s.putMeter m x).backlogOverflow = s.backlogOverflow := rfl
@[simp] theorem putMeter_serial : (s.putMeter m x).serial = s.serial := rfl
@[simp] theorem putMeter_freeCount : (s.putMeter m x).freeCount = s.freeCount := rfl
@[simp] theorem putMeter_point (k : Nat) : (s.putMeter m x).point k = s.point k := rfl
@[simp] theorem putMeter_holder (k : Nat) : (s.putMeter m x).holder k = s.holder k := rfl
@[simp] theorem putMeter_routing (k : Nat) : (s.putMeter m x).routing k = s.routing k := rfl
@[simp] theorem putMeter_district (k : Nat) : (s.putMeter m x).district k = s.district k := rfl
@[simp] theorem putMeter_station (k : Nat) : (s.putMeter m x).station k = s.station k := rfl
@[simp] theorem putMeter_stranger (k : Nat) : (s.putMeter m x).stranger k = s.stranger k := rfl
@[simp] theorem putMeter_port (k : Port) : (s.putMeter m x).port k = s.port k := rfl
@[simp] theorem putMeter_timeNow : (s.putMeter m x).timeNow = s.timeNow := rfl

end putMeter

theorem putMeter_meter (n k : Nat) (x : Meter) :
    (s.putMeter n x).meter k = if n = k ∧ 1 ≤ n ∧ n ≤ 8 then some x else s.meter k :=
  recordGet_recordSet _ _ _ _

/-! ### modStation -/

section modStation

variable (a : Nat) (f : Station → Station)

@[simp] theorem modStation_pending : (s.modStation a f).pending = s.pending := rfl
@[simp] theorem modStation_unit : (s.modStation a f).unit = s.unit := rfl
@[simp] theorem modStation_lastCause : (s.modStation a f).lastCause = s.lastCause := rfl
@[simp] theorem modStation_settings : (s.modStation a f).settings = s.settings := rfl
@[simp] theorem modStation_line : (s.modStation a f).line = s.line := rfl
@[simp] theorem modStation_claims : (s.modStation a f).claims = s.claims := rfl
@[simp] theorem modStation_strangers : (s.modStation a f).strangers = s.strangers := rfl
@[simp] theorem modStation_points : (s.modStation a f).points = s.points := rfl
@[simp] theorem modStation_vapour : (s.modStation a f).vapour = s.vapour := rfl
@[simp] theorem modStation_localConverter : (s.modStation a f).localConverter = s.localConverter := rfl
@[simp] theorem modStation_holders : (s.modStation a f).holders = s.holders := rfl
@[simp] theorem modStation_yardStock : (s.modStation a f).yardStock = s.yardStock := rfl
@[simp] theorem modStation_routings : (s.modStation a f).routings = s.routings := rfl
@[simp] theorem modStation_districts : (s.modStation a f).districts = s.districts := rfl
@[simp] theorem modStation_outletSets : (s.modStation a f).outletSets = s.outletSets := rfl
@[simp] theorem modStation_clock : (s.modStation a f).clock = s.clock := rfl
@[simp] theorem modStation_meters : (s.modStation a f).meters = s.meters := rfl
@[simp] theorem modStation_currentBook : (s.modStation a f).currentBook = s.currentBook := rfl
@[simp] theorem modStation_previousBook : (s.modStation a f).previousBook = s.previousBook := rfl
@[simp] theorem modStation_alarms : (s.modStation a f).alarms = s.alarms := rfl
@[simp] theorem modStation_alarmOverflow : (s.modStation a f).alarmOverflow = s.alarmOverflow := rfl
@[simp] theorem modStation_backlog : (s.modStation a f).backlog = s.backlog := rfl
@[simp] theorem modStation_backlogOverflow : (s.modStation a f).backlogOverflow = s.backlogOverflow := rfl
@[simp] theorem modStation_serial : (s.modStation a f).serial = s.serial := rfl
@[simp] theorem modStation_freeCount : (s.modStation a f).freeCount = s.freeCount := rfl
@[simp] theorem modStation_point (k : Nat) : (s.modStation a f).point k = s.point k := rfl
@[simp] theorem modStation_holder (k : Nat) : (s.modStation a f).holder k = s.holder k := rfl
@[simp] theorem modStation_routing (k : Nat) : (s.modStation a f).routing k = s.routing k := rfl
@[simp] theorem modStation_district (k : Nat) : (s.modStation a f).district k = s.district k := rfl
@[simp] theorem modStation_meter (k : Nat) : (s.modStation a f).meter k = s.meter k := rfl
@[simp] theorem modStation_stranger (k : Nat) : (s.modStation a f).stranger k = s.stranger k := rfl
@[simp] theorem modStation_port (k : Port) : (s.modStation a f).port k = s.port k := rfl
@[simp] theorem modStation_timeNow : (s.modStation a f).timeNow = s.timeNow := rfl

end modStation

theorem modStation_station (a k : Nat) (f : Station → Station) (hf : ∀ e, (f e).address = e.address) :
    (s.modStation a f).station k = (s.station k).map (fun e => if e.address == a then f e else e) :=
  find?_map_address _ _ _ _ hf

/-! ### modPort -/

section modPort

variable (p : Port) (f : PortState → PortState)

@[simp] theorem modPort_pending : (s.modPort p f).pending = s.pending := rfl
@[simp] theorem modPort_unit : (s.modPort p f).unit = s.unit := rfl
@[simp] theorem modPort_lastCause : (s.modPort p f).lastCause = s.lastCause := rfl
@[simp] theorem modPort_settings : (s.modPort p f).settings = s.settings := rfl
@[simp] theorem modPort_claims : (s.modPort p f).claims = s.claims := rfl
@[simp] theorem modPort_directory : (s.modPort p f).directory = s.directory := rfl
@[simp] theorem modPort_strangers : (s.modPort p f).strangers = s.strangers := rfl
@[simp] theorem modPort_points : (s.modPort p f).points = s.points := rfl
@[simp] theorem modPort_vapour : (s.modPort p f).vapour = s.vapour := rfl
@[simp] theorem modPort_localConverter : (s.modPort p f).localConverter = s.localConverter := rfl
@[simp] theorem modPort_holders : (s.modPort p f).holders = s.holders := rfl
@[simp] theorem modPort_yardStock : (s.modPort p f).yardStock = s.yardStock := rfl
@[simp] theorem modPort_routings : (s.modPort p f).routings = s.routings := rfl
@[simp] theorem modPort_districts : (s.modPort p f).districts = s.districts := rfl
@[simp] theorem modPort_outletSets : (s.modPort p f).outletSets = s.outletSets := rfl
@[simp] theorem modPort_clock : (s.modPort p f).clock = s.clock := rfl
@[simp] theorem modPort_meters : (s.modPort p f).meters = s.meters := rfl
@[simp] theorem modPort_currentBook : (s.modPort p f).currentBook = s.currentBook := rfl
@[simp] theorem modPort_previousBook : (s.modPort p f).previousBook = s.previousBook := rfl
@[simp] theorem modPort_alarms : (s.modPort p f).alarms = s.alarms := rfl
@[simp] theorem modPort_alarmOverflow : (s.modPort p f).alarmOverflow = s.alarmOverflow := rfl
@[simp] theorem modPort_backlog : (s.modPort p f).backlog = s.backlog := rfl
@[simp] theorem modPort_backlogOverflow : (s.modPort p f).backlogOverflow = s.backlogOverflow := rfl
@[simp] theorem modPort_serial : (s.modPort p f).serial = s.serial := rfl
@[simp] theorem modPort_freeCount : (s.modPort p f).freeCount = s.freeCount := rfl
@[simp] theorem modPort_point (k : Nat) : (s.modPort p f).point k = s.point k := rfl
@[simp] theorem modPort_holder (k : Nat) : (s.modPort p f).holder k = s.holder k := rfl
@[simp] theorem modPort_routing (k : Nat) : (s.modPort p f).routing k = s.routing k := rfl
@[simp] theorem modPort_district (k : Nat) : (s.modPort p f).district k = s.district k := rfl
@[simp] theorem modPort_meter (k : Nat) : (s.modPort p f).meter k = s.meter k := rfl
@[simp] theorem modPort_station (k : Nat) : (s.modPort p f).station k = s.station k := rfl
@[simp] theorem modPort_stranger (k : Nat) : (s.modPort p f).stranger k = s.stranger k := rfl
@[simp] theorem modPort_timeNow : (s.modPort p f).timeNow = s.timeNow := rfl

end modPort

theorem modPort_port (p q : Port) (f : PortState → PortState) :
    (s.modPort p f).port q = if p = q then f (s.port p) else s.port q := by
  cases p <;> cases q <;> rfl

@[simp] theorem modPort_charge (p q : Port) (f : PortState → PortState) :
    (s.modPort p f).line.charge q = s.line.charge q := by
  cases p <;> rfl

@[simp] theorem modPort_freeGeneral (p : Port) (f : PortState → PortState) :
    (s.modPort p f).line.freeGeneral = s.line.freeGeneral := by
  cases p <;> rfl

@[simp] theorem modPort_freeReserve (p : Port) (f : PortState → PortState) :
    (s.modPort p f).line.freeReserve = s.line.freeReserve := by
  cases p <;> rfl

@[simp] theorem modPort_received (p : Port) (f : PortState → PortState) :
    (s.modPort p f).line.received = s.line.received := by
  cases p <;> rfl

@[simp] theorem modPort_holding (p : Port) (f : PortState → PortState) :
    (s.modPort p f).line.holding = s.line.holding := by
  cases p <;> rfl

@[simp] theorem modPort_repeatTimer (p : Port) (f : PortState → PortState) :
    (s.modPort p f).line.repeatTimer = s.line.repeatTimer := by
  cases p <;> rfl

end Sys2Proof.Laws
end

