-- ==== Sys2Proof/Laws/Pool.lean ====
section
/-! SUPPORT. The pool's takings, freeings, queues and holding change nothing but the line side, and what they leave in its
counts. -/

namespace Sys2Proof.Laws

open Sys2Proof.Machine

/-- Nothing but the line side has changed. -/
def LineOnly (s t : State) : Prop := t = { s with line := t.line }

namespace LineOnly

variable {s t u : State}

theorem refl (s : State) : LineOnly s s := rfl

theorem trans (h : LineOnly s t) (k : LineOnly t u) : LineOnly s u := by
  unfold LineOnly at *
  rw [k, h]

theorem line (s : State) (l : Line) : LineOnly s { s with line := l } := rfl

theorem modPort (p : Port) (f : PortState → PortState) (h : LineOnly s t) : LineOnly s (t.modPort p f) :=
  h.trans (line _ _)

theorem enqueue (p : Port) (urgent : Bool) (x : Telegram) (h : LineOnly s t) :
    LineOnly s (Machine.enqueue p urgent x t) := h.modPort _ _

theorem releaseBuffer (b : Buffer) (h : LineOnly s t) : LineOnly s (Machine.releaseBuffer b t) := h.trans (line _ _)

theorem takeGeneral {c : Option Port} {b : Buffer} (hx : Machine.takeGeneral c t = some (b, u)) (h : LineOnly s t) :
    LineOnly s u := by
  unfold Machine.takeGeneral at hx
  split at hx
  · simp only [Option.some.injEq, Prod.mk.injEq] at hx
    rw [← hx.2]
    exact h.trans (line _ _)
  · cases hx

theorem takeUrgent {b : Buffer} (hx : Machine.takeUrgent t = some (b, u)) (h : LineOnly s t) : LineOnly s u := by
  unfold Machine.takeUrgent at hx
  split at hx
  · rename_i r hr
    cases hx
    exact takeGeneral hr h
  · split at hx
    · simp only [Option.some.injEq, Prod.mk.injEq] at hx
      rw [← hx.2]
      exact h.trans (line _ _)
    · cases hx

theorem takeUrgentMany {k : Nat} {bs : List Buffer} (hx : Machine.takeUrgentMany k t = some (bs, u)) (h : LineOnly s t) :
    LineOnly s u := by
  induction k generalizing t bs with
  | zero =>
    cases hx
    exact h
  | succ k ih =>
    unfold Machine.takeUrgentMany at hx
    split at hx
    · cases hx
    · rename_i b v hv
      split at hx
      · cases hx
      · rename_i cs w hw
        simp only [Option.some.injEq, Prod.mk.injEq] at hx
        rw [hx.2] at hw
        exact ih hw (takeUrgent hv h)

theorem controlCopy (kind : Nat) (body : List Byte) (p : Port) (h : LineOnly s t) :
    LineOnly s (Machine.controlCopy kind body p t) := by
  unfold Machine.controlCopy
  split
  · exact h
  · rename_i b v hv
    exact (takeUrgent hv h).enqueue _ _ _

theorem sendHold (h : LineOnly s t) : LineOnly s (Machine.sendHold t) :=
  ((h.controlCopy _ _ _).controlCopy _ _ _).trans (line _ _)

theorem enterHolding (h : LineOnly s t) : LineOnly s (Machine.enterHolding t) := sendHold (h.trans (line _ _))

theorem leaveHolding (h : LineOnly s t) : LineOnly s (Machine.leaveHolding t) := by
  have k := ((h.trans (line t { t.line with holding := .notHolding, repeatTimer := .stopped })).controlCopy kindGo []
    .n).controlCopy kindGo [] .s
  unfold Machine.leaveHolding
  dsimp only
  split
  · exact k.enterHolding
  · exact k

/-- The holding test changes nothing but the line side. -/
theorem holdingTest (h : LineOnly s t) : LineOnly s (Machine.holdingTest t) := by
  unfold Machine.holdingTest
  split <;> split
  · exact h.enterHolding
  · exact h
  · exact h.leaveHolding
  · exact h

theorem queueCopies (o : Order) (n : Nat) (l : List (Port × Buffer)) (h : LineOnly s t) :
    LineOnly s (Machine.queueCopies o n l t).2 := by
  induction l generalizing t with
  | nil => exact h
  | cons x l ih =>
    obtain ⟨p, b⟩ := x
    unfold Machine.queueCopies
    split
    · exact ih (h.enqueue _ _ _)
    · exact ih h

end LineOnly

/-! ### Counts -/

/-- A general buffer taken: the free count falls by one, and the charge count of its port rises by one. -/
theorem takeGeneral_counts {c : Option Port} {b : Buffer} {s t : State} (h : takeGeneral c s = some (b, t)) :
    b = ⟨.general, c⟩ ∧ s.line.freeGeneral = t.line.freeGeneral + 1 ∧ t.line.freeReserve = s.line.freeReserve ∧
      ∀ p, t.line.charge p = s.line.charge p + if c = some p then 1 else 0 := by
  unfold takeGeneral at h
  by_cases hm : mayTakeGeneral c s = true
  · rw [if_pos hm] at h
    have hp : 0 < s.line.freeGeneral := by
      unfold mayTakeGeneral at hm
      simp only [Bool.and_eq_true, decide_eq_true_eq] at hm
      exact hm.1
    simp only [Option.some.injEq, Prod.mk.injEq] at h
    obtain ⟨rfl, rfl⟩ := h
    rcases c with _ | c
    · exact ⟨rfl, (Nat.sub_add_cancel hp).symm, rfl, fun _ => rfl⟩
    · cases c <;> refine ⟨rfl, (Nat.sub_add_cancel hp).symm, rfl, fun p => ?_⟩ <;> cases p <;> rfl
  · rw [if_neg hm] at h
    cases h

/-- A general taking fails only for want of a free buffer, or in PARTITIONED mode at the charge limit of its port. -/
theorem takeGeneral_none {c : Option Port} {s : State} :
    takeGeneral c s = none ↔ mayTakeGeneral c s = false := by
  unfold takeGeneral
  split <;> simp_all

/-- An URGENT taking of the processor is a general buffer, or a reserve one where no general buffer is free. -/
theorem takeUrgent_counts {b : Buffer} {s t : State} (h : takeUrgent s = some (b, t)) :
    b.charge = none ∧ (∀ p, t.line.charge p = s.line.charge p) ∧
      ((b.cls = .general ∧ s.line.freeGeneral = t.line.freeGeneral + 1 ∧ t.line.freeReserve = s.line.freeReserve) ∨
       (b.cls = .reserve ∧ s.line.freeGeneral = 0 ∧ t.line.freeGeneral = 0 ∧
          s.line.freeReserve = t.line.freeReserve + 1)) := by
  unfold takeUrgent at h
  split at h
  · rename_i r hr
    cases h
    obtain ⟨rfl, h1, h2, h3⟩ := takeGeneral_counts hr
    exact ⟨rfl, fun p => by simpa using h3 p, .inl ⟨rfl, h1, h2⟩⟩
  · rename_i hn
    split at h
    · rename_i hp
      simp only [Option.some.injEq, Prod.mk.injEq] at h
      obtain ⟨rfl, rfl⟩ := h
      have hz : s.line.freeGeneral = 0 := by simpa [takeGeneral_none, mayTakeGeneral] using hn
      exact ⟨rfl, fun p => by cases p <;> rfl, .inr ⟨rfl, hz, hz, (Nat.sub_add_cancel hp).symm⟩⟩
    · cases h

/-- A freed buffer: the free count of its class rises by one, and the charge count of its port falls by one. -/
theorem releaseBuffer_counts (b : Buffer) (s : State) :
    (releaseBuffer b s).line.freeGeneral = s.line.freeGeneral + (if b.cls = .general then 1 else 0) ∧
    (releaseBuffer b s).line.freeReserve = s.line.freeReserve + (if b.cls = .reserve then 1 else 0) ∧
    ∀ p, (releaseBuffer b s).line.charge p = s.line.charge p - if b.charge = some p then 1 else 0 := by
  obtain ⟨cls, charge⟩ := b
  rcases charge with _ | c
  · cases cls <;> exact ⟨rfl, rfl, fun p => rfl⟩
  · cases cls <;> cases c <;> refine ⟨rfl, rfl, fun p => ?_⟩ <;> cases p <;> rfl

end Sys2Proof.Laws
end

