-- ==== Sys2Proof/Laws/Yard.lean ====
section
/-! SUPPORT. What the yard blocks' operations can do to the state: every one of them is a run of the primitive changes
named here. A property of the state that each primitive keeps is kept by all of them. -/

namespace Sys2Proof.Laws

open Sys2Proof.Machine

/-- Every pending list of a directory holds at most its number of orders. -/
def ListsFit (directory : List Station) : Prop := ∀ e ∈ directory, e.pendingList.length ≤ Config.pendingOrders

/-- The runs of primitive changes the yard blocks make: the Stock Reckoning, Valve Interlock, Order, Pressure Scheduler
and Account Units, the Alarm List, and the owing side of the Report Backlog. -/
inductive Yard : State → State → Prop
  | refl (s : State) : Yard s s
  | trans {s t u : State} : Yard s t → Yard t u → Yard s u
  | holder (s : State) (h : Nat) (x : Holder) : Yard s (s.putHolder h x)
  | routing (s : State) (h : Nat) (x : Routing) : Yard s (s.putRouting h x)
  | district (s : State) (d : Nat) (x : District) : Yard s (s.putDistrict d x)
  | meter (s : State) (m : Nat) (x : Meter) : Yard s (s.putMeter m x)
  | outlet (s : State) (h : Nat) (set : DistrictSet) : Yard s (writeOutletSet h set s)
  | stock (s : State) : Yard s (formYardStock s)
  | hour (s : State) (f : Hour → Hour) : (∀ r, (f r).state = r.state) → Yard s (modOpenHour f s)
  | serial (s : State) : Yard s (nextSerial s)
  | full (s : State) (r : FullReport) : Yard s (oweFull r s)
  | reference (s : State) (ref : RecordRef) : (∀ key, ref ≠ .alarm key) → Yard s (oweReference ref s)
  | alarmEntry (s : State) (key : AlarmKey) : key ∈ s.alarms.map (·.key) → Yard s (oweAlarm key s)
  | alarmFields (s : State) (f : Alarm → Alarm) : (∀ r, (f r).key = r.key ∧ (f r).reportOwed = r.reportOwed ∧
      (1 ≤ r.count → r.count ≤ 255 → 1 ≤ (f r).count ∧ (f r).count ≤ 255)) →
      Yard s { s with alarms := s.alarms.map f }
  | alarmNew (s : State) (key : AlarmKey) : findAlarm key s = none → s.alarms.length < Config.alarmRecords →
      Yard s (appendAlarm key s)
  | alarmEvict (s : State) (r : Alarm) (key : AlarmKey) : r ∈ s.alarms → findAlarm key s = none →
      Yard s (appendAlarm key (removeAlarm r s))
  | alarmGone (s : State) (r : Alarm) : findAlarm r.key s = some r → Yard s (removeAlarm r s)
  | alarmOverflow (s : State) (v : Bool) : Yard s { s with alarmOverflow := v }
  | station (s : State) (a : Nat) (f : Station → Station) :
      (∀ e, f e = { e with slot := (f e).slot, pendingList := (f e).pendingList }) →
      (ListsFit s.directory → ∀ e ∈ s.directory, (f e).pendingList.length ≤ Config.pendingOrders) →
      Yard s (s.modStation a f)
  | claim (s : State) (c : Claim) : Yard s (withdrawClaim c s)

namespace Yard

variable {s t : State}

/-! ### Folds -/

theorem foldl {α : Type} {f : State → α → State} (hf : ∀ {s t : State} (x : α), Yard s t → Yard s (f t x)) (l : List α)
    (h : Yard s t) : Yard s (l.foldl f t) := by
  induction l generalizing t with
  | nil => exact h
  | cons x l ih => exact ih (hf x h)

/-! ### Alarm List and Report Backlog -/

theorem oweFull (r : FullReport) (h : Yard s t) : Yard s (Machine.oweFull r t) := h.trans (.full _ _)

theorem oweAlarm (key : AlarmKey) (hk : key ∈ t.alarms.map (·.key)) (h : Yard s t) : Yard s (Machine.oweAlarm key t) :=
  h.trans (.alarmEntry _ _ hk)

theorem oweAlarmIfEnabled (key : AlarmKey) (hk : key ∈ t.alarms.map (·.key)) (h : Yard s t) :
    Yard s (Machine.oweAlarmIfEnabled key t) := by
  unfold Machine.oweAlarmIfEnabled
  split
  · exact h.oweAlarm key hk
  · exact h

theorem oweReference (ref : RecordRef) (hr : ∀ key, ref ≠ .alarm key) (h : Yard s t) :
    Yard s (Machine.oweReference ref t) := h.trans (.reference _ _ hr)

theorem findAlarm_key {key : AlarmKey} {r : Alarm} (h : findAlarm key t = some r) : r.key = key := by
  have := List.find?_some h
  simpa using this

/-- The key of a record that is found is held. -/
theorem findAlarm_held {key : AlarmKey} {r : Alarm} (h : findAlarm key t = some r) : key ∈ t.alarms.map (·.key) :=
  List.mem_map.mpr ⟨r, List.mem_of_find?_eq_some h, findAlarm_key h⟩

/-- Records changed in other fields than their keys hold the same keys. -/
theorem keys_map {f : Alarm → Alarm} (hf : ∀ r, (f r).key = r.key) (l : List Alarm) :
    (l.map f).map (·.key) = l.map (·.key) := by
  rw [List.map_map]
  exact congrArg (fun g => l.map g) (funext hf)

/-- R163: what a raise makes of a record held. -/
theorem raised_fields (key : AlarmKey) (now : Option Nat) (r : Alarm) :
    let f := fun r : Alarm => if r.key == key then
      { r with count := min 255 (r.count + 1), lastTime := now, state := .active, acknowledged := false } else r
    (f r).key = r.key ∧ (f r).reportOwed = r.reportOwed ∧
      (1 ≤ r.count → r.count ≤ 255 → 1 ≤ (f r).count ∧ (f r).count ≤ 255) := by
  dsimp only
  split
  · exact ⟨rfl, rfl, fun _ _ => by dsimp only; omega⟩
  · exact ⟨rfl, rfl, fun h k => ⟨h, k⟩⟩

theorem raiseAlarm (key : AlarmKey) (h : Yard s t) : Yard s (Machine.raiseAlarm key t) := by
  have happ : ∀ v : State, key ∈ (appendAlarm key v).alarms.map (·.key) := fun v => by simp [appendAlarm]
  unfold Machine.raiseAlarm
  split
  · rename_i r hr
    refine oweAlarmIfEnabled key ?_ (h.trans (.alarmFields _ _ fun r => raised_fields key t.timeNow r))
    dsimp only
    rw [keys_map (fun r => (raised_fields key t.timeNow r).1)]
    exact findAlarm_held hr
  · rename_i hn
    split
    · rename_i hl
      exact oweAlarmIfEnabled key (happ _) (h.trans (.alarmNew _ _ hn hl))
    · split
      · rename_i r hr
        exact oweAlarmIfEnabled key (happ _) (h.trans (.alarmEvict _ _ _ (List.mem_of_find?_eq_some hr) hn))
      · exact h.trans (.alarmOverflow _ _)

theorem dropAlarm {r : Alarm} (b : Bool) (hr : findAlarm r.key t = some r) (h : Yard s t) :
    Yard s (Machine.dropAlarm r b t) := by
  unfold Machine.dropAlarm
  split
  · exact h.trans (.alarmGone _ _ hr)
  · exact oweFull _ (h.trans (.alarmGone _ _ hr))

theorem settleAlarmOverflow (h : Yard s t) : Yard s (Machine.settleAlarmOverflow t) := by
  unfold Machine.settleAlarmOverflow
  split
  · exact h.trans (.alarmOverflow _ _)
  · exact h

theorem clearAlarm (key : AlarmKey) (h : Yard s t) : Yard s (Machine.clearAlarm key t) := by
  unfold Machine.clearAlarm
  split
  · exact h
  · rename_i r hr
    have hk := findAlarm_key hr
    split
    · exact h
    · split
      · exact settleAlarmOverflow (dropAlarm _ (hk ▸ hr) h)
      · have hf : ∀ q : Alarm, let f := fun q : Alarm => if q.key == key then { q with state := .clearedUnacked } else q
            (f q).key = q.key ∧ (f q).reportOwed = q.reportOwed ∧
              (1 ≤ q.count → q.count ≤ 255 → 1 ≤ (f q).count ∧ (f q).count ≤ 255) := by
          intro q
          dsimp only
          split <;> exact ⟨rfl, rfl, fun h k => ⟨h, k⟩⟩
        refine oweAlarmIfEnabled key ?_ (h.trans (.alarmFields _ _ hf))
        dsimp only
        rw [keys_map (fun q => (hf q).1)]
        exact findAlarm_held hr

theorem nextSerial (h : Yard s t) : Yard s (Machine.nextSerial t) := h.trans (.serial _)

/-! ### Orders -/

theorem oweSuperseded (o : Order) (c : SupersessionCause) (h : Yard s t) : Yard s (Machine.oweSuperseded o c t) :=
  oweFull _ h

theorem supersede (c : SupersessionCause) (o : Order) (h : Yard s t) : Yard s (Machine.supersede c t o) := by
  unfold Machine.supersede
  split
  · exact oweSuperseded _ _ h
  · exact h

theorem oweRefusal (a : Nat) (body : List Byte) (r : RefusalReason) (h : Yard s t) :
    Yard s (Machine.oweRefusal a body r t) := oweFull _ h

theorem withdrawClaim (c : Claim) (h : Yard s t) : Yard s (Machine.withdrawClaim c t) := h.trans (.claim _ _)

theorem slot (a : Nat) (f : Station → Slot) (h : Yard s t) :
    Yard s (t.modStation a (fun e => { e with slot := f e })) :=
  h.trans (.station _ _ _ (fun _ => rfl) (fun h => h))

theorem emptySlot (a : Nat) (h : Yard s t) : Yard s (Machine.emptySlot a t) := withdrawClaim _ (slot a (fun _ => .empty) h)

theorem takeHead_only (e : Station) :
    e.takeHead = { e with slot := e.takeHead.slot, pendingList := e.takeHead.pendingList } := by
  unfold Station.takeHead
  split <;> rfl

theorem takeHead_length (e : Station) : e.takeHead.pendingList.length ≤ e.pendingList.length := by
  unfold Station.takeHead
  split
  · rename_i h
    simp [h]
  · exact Nat.le_refl _

theorem serve (a : Nat) (h : Yard s t) : Yard s (Machine.serve a t) :=
  h.trans (.station _ _ _ takeHead_only (fun he e hm => Nat.le_trans (takeHead_length e) (he e hm)))

theorem setList (a : Nat) (l : List Order) (hl : ListsFit t.directory → l.length ≤ Config.pendingOrders) (h : Yard s t) :
    Yard s (Machine.setList a l t) :=
  h.trans (.station _ _ _ (fun _ => rfl) (fun he _ _ => hl he))

theorem station_mem {a : Nat} {e : Station} (h : t.station a = some e) : e ∈ t.directory := List.mem_of_find?_eq_some h

theorem oweFull_directory (r : FullReport) (s : State) : (Machine.oweFull r s).directory = s.directory := by
  unfold Machine.oweFull addEntry
  split <;> rfl

theorem supersede_directory (c : SupersessionCause) (o : Order) (s : State) :
    (Machine.supersede c s o).directory = s.directory := by
  unfold Machine.supersede
  split
  · exact oweFull_directory _ _
  · rfl

theorem supersede_foldl_directory (c : SupersessionCause) (l : List Order) (s : State) :
    (l.foldl (Machine.supersede c) s).directory = s.directory := by
  induction l generalizing s with
  | nil => rfl
  | cons o l ih => exact (ih _).trans (supersede_directory c o s)

theorem placeOffice_list (a : Nat) (o : Order) (h : Yard s t)
    (hroom : ListsFit t.directory → ∀ e ∈ t.directory, (e.pendingList ++ [o]).length ≤ Config.pendingOrders) :
    Yard s (t.modStation a (fun e => { e with pendingList := e.pendingList ++ [o] })) :=
  h.trans (.station _ _ _ (fun _ => rfl) hroom)

theorem removeFirst_length {p : Order → Bool} {l rest : List Order} {o : Order}
    (h : removeFirst p l = some (o, rest)) : rest.length + 1 = l.length := by
  induction l generalizing rest with
  | nil => simp [removeFirst] at h
  | cons x l ih =>
    unfold removeFirst at h
    split at h
    · simp only [Option.some.injEq, Prod.mk.injEq] at h
      simp [h.2]
    · cases hr : removeFirst p l with
      | none => simp [hr] at h
      | some q =>
        simp only [hr, Option.map_some, Option.some.injEq, Prod.mk.injEq] at h
        have := ih (rest := q.2) (by rw [hr, ← h.1])
        simp [← h.2, this]

theorem makeRoom_length (l : List Order) (hl : l.length ≤ Config.pendingOrders) (s : State) :
    (makeRoom l s).1.length < Config.pendingOrders := by
  unfold makeRoom
  split
  · assumption
  · rename_i hn
    split
    · rename_i o rest h
      have := removeFirst_length h
      show rest.length < _
      omega
    · simp only [List.length_drop]
      simp only [Config.pendingOrders] at *
      omega

theorem makeRoom_directory (l : List Order) (s : State) : (makeRoom l s).2.directory = s.directory := by
  unfold makeRoom
  split
  · rfl
  · split
    · exact oweFull_directory _ _
    · rfl

theorem makeRoom (l : List Order) (h : Yard s t) : Yard s (Machine.makeRoom l t).2 := by
  unfold Machine.makeRoom
  split
  · exact h
  · split
    · exact oweSuperseded _ _ h
    · exact h

theorem placeClose (a v : Nat) (c : SupersessionCause) (h : Yard s t) : Yard s (Machine.placeClose a v c t) := by
  unfold Machine.placeClose
  split
  · exact h
  · rename_i st hst
    have hm := station_mem hst
    have h1 : Yard s (Machine.nextSerial t) := nextSerial h
    refine setList _ _ ?_ ?_
    · intro he
      have hle : st.pendingList.length ≤ Config.pendingOrders := by
        refine he st ?_
        split
        · rw [supersede_foldl_directory]
          exact hm
        · exact hm
      split
      · simp only [List.length_cons, List.length_dropLast]
        simp only [decide_eq_true_eq, Config.pendingOrders] at *
        omega
      · simp only [List.length_cons]
        simp only [decide_eq_true_eq, Config.pendingOrders] at *
        omega
    · split
      · exact foldl (fun _ h => supersede _ _ h) _ h1
      · exact h1

theorem replaceSets_length_placed (o : Order) (l : List Order) : (replaceSets o l true).length ≤ l.length := by
  induction l with
  | nil => simp [replaceSets]
  | cons q l ih =>
    unfold replaceSets
    split
    · simp only [if_true]
      exact Nat.le_succ_of_le ih
    · simp only [List.length_cons]
      omega

theorem replaceSets_length (o : Order) (l : List Order) (h : l.any Order.isSet = true) :
    (replaceSets o l false).length ≤ l.length := by
  induction l with
  | nil => simp at h
  | cons q l ih =>
    unfold replaceSets
    split
    · simp only [Bool.false_eq_true, if_false, List.length_cons]
      have := replaceSets_length_placed o l
      omega
    · rename_i hq
      simp only [List.any_cons, Bool.or_eq_true, hq] at h
      simp only [List.length_cons]
      have := ih (by simpa using h)
      omega

theorem placeSet (a d v : Nat) (h : Yard s t) : Yard s (Machine.placeSet a d v t) := by
  unfold Machine.placeSet
  split
  · exact h
  · rename_i st hst
    have hm := station_mem hst
    have h1 : Yard s ((st.pendingList.filter Order.isSet).foldl (Machine.supersede .governor) (Machine.nextSerial t)) :=
      foldl (fun _ h => supersede _ _ h) _ (nextSerial h)
    have hd : ((st.pendingList.filter Order.isSet).foldl (Machine.supersede .governor) (Machine.nextSerial t)).directory
        = t.directory := supersede_foldl_directory _ _ _
    split
    · rename_i hany
      refine serve _ (setList _ _ ?_ h1)
      intro he
      rw [hd] at he
      exact Nat.le_trans (replaceSets_length _ _ hany) (he st hm)
    · refine serve _ (setList _ _ ?_ (makeRoom _ h1))
      intro he
      rw [makeRoom_directory, hd] at he
      have := makeRoom_length st.pendingList (he st hm)
        ((st.pendingList.filter Order.isSet).foldl (Machine.supersede .governor) (Machine.nextSerial t))
      simp only [List.length_append, List.length_cons, List.length_nil]
      omega

theorem placeRelease (a d : Nat) (h : Yard s t) : Yard s (Machine.placeRelease a d t) := by
  unfold Machine.placeRelease
  split
  · exact h
  · rename_i st hst
    have hm := station_mem hst
    refine serve _ (setList _ _ ?_ (makeRoom _ (nextSerial h)))
    intro he
    rw [makeRoom_directory] at he
    have hk := Nat.le_trans (List.length_filter_le (fun q => !(!q.fromOffice && (q.isSet || q.isRelease))) st.pendingList)
      (he st hm)
    have := makeRoom_length _ hk (Machine.nextSerial t)
    simp only [List.length_append, List.length_cons, List.length_nil]
    omega

theorem filterList (a : Nat) (p : Order → Bool) {e : Station} (he : t.station a = some e) (h : Yard s t) :
    Yard s (Machine.setList a (e.pendingList.filter p) t) :=
  setList _ _ (fun hf => Nat.le_trans (List.length_filter_le _ _) (hf e (station_mem he))) h

end Yard

end Sys2Proof.Laws
end

