-- ==== Sys2Proof/Laws/YardUnits.lean ====
section
/-! SUPPORT. Every operation of the Account Unit, the Pressure Scheduler, the Valve Interlock Unit, the Stock Reckoning
Unit and the endings of orders is a run of the yard's primitive changes. -/

namespace Sys2Proof.Laws.Yard

open Sys2Proof.Machine

variable {s t : State}

/-! ### Account Unit -/

theorem modDistrict_state (d : Nat) (f : DistrictHour → DistrictHour) (r : Hour) :
    (Hour.modDistrict d f r).state = r.state := by cases d <;> rfl

theorem modMake_state (m : Nat) (f : MakeHour → MakeHour) (r : Hour) : (Hour.modMake m f r).state = r.state := by
  cases m <;> rfl

theorem add_state (target : MeterTarget) (v e : Nat) (flags : HourFlags) (r : Hour) :
    (Hour.add target v e flags r).state = r.state := by
  cases target
  · exact modDistrict_state _ _ _
  · exact modMake_state _ _ _

theorem modOpenHour (f : Hour → Hour) (hf : ∀ r, (f r).state = r.state) (h : Yard s t) :
    Yard s (Machine.modOpenHour f t) := h.trans (.hour _ _ hf)

theorem handActive (d v : Nat) (h : Yard s t) : Yard s (Machine.handActive d v t) :=
  modOpenHour _ (modDistrict_state _ _) h

theorem handTellTale (d : Nat) (v : Int) (h : Yard s t) : Yard s (Machine.handTellTale d v t) :=
  modOpenHour _ (modDistrict_state _ _) h

theorem handStockPartial (h : Yard s t) : Yard s (Machine.handStockPartial t) := modOpenHour _ (fun _ => rfl) h

theorem putMeter (m : Nat) (x : Meter) (h : Yard s t) : Yard s (t.putMeter m x) := h.trans (.meter _ _ _)

theorem account (m : Nat) (r : Meter) (v e : Nat) (f : HourFlags) (h : Yard s t) :
    Yard s (Machine.account m r v e f t) := by
  unfold Machine.account
  split
  · exact modOpenHour _ (add_state _ _ _ _) (putMeter _ _ h)
  · exact putMeter _ _ h

theorem takeCount (m c : Nat) (h : Yard s t) : Yard s (Machine.takeCount m c t) := by
  unfold Machine.takeCount
  split
  · exact h
  · dsimp only
    split
    · exact putMeter _ _ h
    · split
      · exact account _ _ _ _ _ (raiseAlarm _ (putMeter _ _ h))
      · exact clearAlarm _ (account _ _ _ _ _ h)

theorem loseCount (m : Nat) (h : Yard s t) : Yard s (Machine.loseCount m t) := by
  unfold Machine.loseCount
  split
  · exact h
  · exact account _ _ _ _ _ h

theorem takePeriod (m p : Nat) (h : Yard s t) : Yard s (Machine.takePeriod m p t) := by
  unfold Machine.takePeriod
  split
  · exact h
  · dsimp only
    split
    · exact putMeter _ _ h
    · exact modOpenHour _ (modDistrict_state _ _) (putMeter _ _ h)

theorem meterCountUpdate (u : PointUpdate) (m : Nat) (h : Yard s t) : Yard s (Machine.meterCountUpdate u m t) := by
  unfold Machine.meterCountUpdate
  split
  · exact takeCount _ _ h
  · exact loseCount _ h
  · exact loseCount _ h
  · exact h

theorem meterPeriodUpdate (u : PointUpdate) (m : Nat) (h : Yard s t) : Yard s (Machine.meterPeriodUpdate u m t) := by
  unfold Machine.meterPeriodUpdate
  split
  · exact takePeriod _ _ h
  · exact h

theorem meterUpdate (u : PointUpdate) (m : Nat) (h : Yard s t) : Yard s (Machine.meterUpdate u t m) := by
  unfold Machine.meterUpdate
  split
  · exact h
  · dsimp only
    have h1 : ∀ {c : Prop} [Decidable c], Yard s (if c then Machine.meterCountUpdate u m t else t) := by
      intro c _
      split
      · exact meterCountUpdate _ _ h
      · exact h
    split
    · exact meterPeriodUpdate _ _ h1
    · exact h1

theorem accountUpdate (u : PointUpdate) (h : Yard s t) : Yard s (Machine.accountUpdate u t) :=
  foldl (fun m h => meterUpdate u m h) _ h

/-! ### Pressure Scheduler -/

theorem putDistrict (d : Nat) (x : District) (h : Yard s t) : Yard s (t.putDistrict d x) := h.trans (.district _ _ _)

theorem oweSetpoint (d : Nat) (h : Yard s t) : Yard s (Machine.oweSetpoint d t) :=
  oweReference _ (fun _ => by simp) h

theorem writeActive (d v : Nat) (h : Yard s t) : Yard s (Machine.writeActive d v t) := by
  unfold Machine.writeActive
  split
  · exact h
  · split
    · exact h
    · exact handActive _ _ (putDistrict _ _ h)

theorem setFailed (b : Bool) (d a : Nat) (h : Yard s t) : Yard s (Machine.setFailed b d a t) := by
  unfold Machine.setFailed
  dsimp only
  have h1 : Yard s (if b then Machine.raiseAlarm (alarmKey .orderFailed d) t else t) := by
    split
    · exact raiseAlarm _ h
    · exact h
  split
  · exact h1
  · split
    · exact putDistrict _ _ h1
    · exact h1

theorem issueSet (d v : Nat) (h : Yard s t) : Yard s (Machine.issueSet d v t) := by
  unfold Machine.issueSet
  split
  · exact h
  · split
    · exact setFailed _ _ _ h
    · exact placeSet _ _ _ h

theorem issueRelease (d : Nat) (h : Yard s t) : Yard s (Machine.issueRelease d t) := by
  unfold Machine.issueRelease
  split
  · exact h
  · split
    · exact raiseAlarm _ h
    · exact placeRelease _ _ h

theorem sendDecision (d : Nat) (h : Yard s t) : Yard s (Machine.sendDecision d t) := by
  unfold Machine.sendDecision
  split
  · exact h
  · split
    · exact h
    · split
      · exact issueSet _ _ h
      · exact h

theorem supplyStateChanged (d : Nat) (b : Bool) (h : Yard s t) : Yard s (Machine.supplyStateChanged d b t) := by
  unfold Machine.supplyStateChanged
  refine oweSetpoint _ ?_
  split
  · exact clearAlarm _ h
  · exact raiseAlarm _ h

theorem clampActive (d : Nat) (h : Yard s t) : Yard s (Machine.clampActive d t) := by
  unfold Machine.clampActive
  split
  · exact h
  · split
    · exact h
    · split
      · refine sendDecision _ ?_
        split
        · exact raiseAlarm _ (writeActive _ _ h)
        · exact writeActive _ _ h
      · exact h

theorem recomputeDistrict (d : Nat) (h : Yard s t) : Yard s (Machine.recomputeDistrict t d) := by
  unfold Machine.recomputeDistrict
  split
  · exact h
  · dsimp only
    split
    · exact h
    · refine clampActive _ ?_
      split
      · exact putDistrict _ _ h
      · exact supplyStateChanged _ _ (putDistrict _ _ h)

theorem recomputeSupply (h : Yard s t) : Yard s (Machine.recomputeSupply t) :=
  foldl (fun d h => recomputeDistrict d h) _ h

theorem writeOutletSet (k : Nat) (set : DistrictSet) (h : Yard s t) : Yard s (Machine.writeOutletSet k set t) :=
  h.trans (.outlet _ _ _)

theorem handOutletSet (k : Nat) (set : DistrictSet) (h : Yard s t) : Yard s (Machine.handOutletSet k set t) :=
  recomputeSupply (writeOutletSet _ _ h)

theorem judgeShort (d : Nat) (r : District) (b : Nat) (h : Yard s t) : Yard s (Machine.judgeShort d r b t) := by
  unfold Machine.judgeShort
  split
  · exact h
  · split
    · exact raiseAlarm _ h
    · exact clearAlarm _ h

theorem stepComputation (d : Nat) (h : Yard s t) : Yard s (Machine.stepComputation d t) := by
  unfold Machine.stepComputation
  split
  · exact h
  · exact sendDecision _ (writeActive _ _ (judgeShort _ _ _ (putDistrict _ _ h)))

theorem stepBoundary (d : Nat) (h : Yard s t) : Yard s (Machine.stepBoundary d t) := by
  unfold Machine.stepBoundary
  split
  · exact h
  · dsimp only
    split
    · exact stepComputation _ (putDistrict _ _ h)
    · exact putDistrict _ _ h

theorem governorCompletion (d a : Nat) (o : Order) (reply : List Byte) (h : Yard s t) :
    Yard s (Machine.governorCompletion d a o reply t) := by
  unfold Machine.governorCompletion
  split
  · exact h
  · split
    · exact h
    · dsimp only
      split
      · split
        · have h1 : ∀ {r : District} {v : Nat} {x : District}, Yard s
              (if r.mode = .auto then t.putDistrict d x else Machine.writeActive d v (t.putDistrict d x)) := by
            intro r v x
            split
            · exact putDistrict _ _ h
            · exact writeActive _ _ (putDistrict _ _ h)
          split
          · exact oweSetpoint _ h1
          · exact h1
        · exact putDistrict _ _ h
      · exact putDistrict _ _ h

theorem judgeOrderFailed (d : Nat) (reply : List Byte) (h : Yard s t) :
    Yard s (Machine.judgeOrderFailed d reply t) := by
  unfold Machine.judgeOrderFailed
  split
  · exact clearAlarm _ h
  · exact raiseAlarm _ h

theorem tellTaleUpdate (u : PointUpdate) (d : Nat) (h : Yard s t) : Yard s (Machine.tellTaleUpdate u t d) := by
  unfold Machine.tellTaleUpdate
  split
  · exact h
  · split
    · split
      · exact handTellTale _ _ h
      · exact h
    · exact h

theorem schedulerUpdate (u : PointUpdate) (h : Yard s t) : Yard s (Machine.schedulerUpdate u t) :=
  foldl (fun d h => tellTaleUpdate u d h) _ h

/-! ### Valve Interlock Unit -/

theorem putRouting (k : Nat) (x : Routing) (h : Yard s t) : Yard s (t.putRouting k x) := h.trans (.routing _ _ _)

theorem formOutletSet (k : Nat) (h : Yard s t) : Yard s (Machine.formOutletSet k t) := by
  unfold Machine.formOutletSet
  split
  · exact h
  · dsimp only
    split
    · exact h
    · exact handOutletSet _ _ (putRouting _ _ h)

theorem clearCloseFailed (k : Nat) (c : Vector ValveState 7) (h : Yard s t) :
    Yard s (Machine.clearCloseFailed k c t) := by
  unfold Machine.clearCloseFailed
  refine foldl (fun v h => ?_) _ h
  split
  · exact clearAlarm _ h
  · exact h

theorem takeValveStates (k : Nat) (body : List Byte) (h : Yard s t) : Yard s (Machine.takeValveStates k body t) := by
  unfold Machine.takeValveStates
  split
  · split
    · exact h
    · exact clearCloseFailed _ _ (formOutletSet _ (putRouting _ _ h))
  · exact h

theorem closeOutcome (k v : Nat) (b : Bool) (h : Yard s t) : Yard s (Machine.closeOutcome k v b t) := by
  unfold Machine.closeOutcome
  split
  · exact h
  · split
    · exact h
    · exact raiseAlarm _ (formOutletSet _ (putRouting _ _ h))

theorem setSequence (k : Nat) (l : List Closure) (i : Option Nat) (h : Yard s t) :
    Yard s (Machine.setSequence k l i t) := by
  unfold Machine.setSequence
  split
  · exact h
  · exact putRouting _ _ h

theorem handFront (k a : Nat) (l : List Closure) (h : Yard s t) : Yard s (Machine.handFront k a l t) := by
  induction l generalizing t with
  | nil => exact setSequence _ _ _ h
  | cons c l ih =>
    unfold Machine.handFront
    split
    · exact h
    · split
      · exact ih h
      · split
        · exact ih (closeOutcome _ _ _ (setSequence _ _ _ h))
        · exact placeClose _ _ _ (setSequence _ _ _ h)

theorem handOver (k : Nat) (h : Yard s t) : Yard s (Machine.handOver k t) := by
  unfold Machine.handOver
  split
  · split
    · exact h
    · exact handFront _ _ _ h
  · exact h

theorem closeEnded (k : Nat) (o : Order) (d r : Bool) (h : Yard s t) : Yard s (Machine.closeEnded k o d r t) := by
  unfold Machine.closeEnded
  split
  · exact h
  · split
    · split
      · exact h
      · dsimp only
        split
        · exact handOver _ (closeOutcome _ _ _ (setSequence _ _ _ h))
        · exact closeOutcome _ _ _ (setSequence _ _ _ h)
    · exact h

theorem dropSequence (k : Nat) (l : List Closure) (h : Yard s t) : Yard s (Machine.dropSequence k l t) := by
  induction l generalizing t with
  | nil => exact setSequence _ _ _ h
  | cons c l ih =>
    unfold Machine.dropSequence
    split
    · exact h
    · exact ih (closeOutcome _ _ _ (setSequence _ _ _ h))

theorem abandonOpen (a : Nat) (c : SupersessionCause) (h : Yard s t) : Yard s (Machine.abandonOpen a c t).2 := by
  unfold Machine.abandonOpen
  split
  · exact h
  · split
    · exact oweSuperseded _ _ (emptySlot _ h)
    · exact h

theorem removeOpens (a : Nat) (c : SupersessionCause) (h : Yard s t) : Yard s (Machine.removeOpens a c t) := by
  unfold Machine.removeOpens
  split
  · exact h
  · rename_i hst
    exact foldl (fun o h => oweSuperseded o c h) _ (filterList _ _ hst h)

theorem withdrawOpens (a : Nat) (c : SupersessionCause) (h : Yard s t) : Yard s (Machine.withdrawOpens a c t).2 :=
  removeOpens _ _ (abandonOpen _ _ h)

theorem addClosures (k : Nat) (c : SupersessionCause) (v : Option Nat) (h : Yard s t) :
    Yard s (Machine.addClosures k c v t) := by
  unfold Machine.addClosures
  split
  · exact h
  · exact putRouting _ _ h

theorem interlockCause (k : Nat) (c : SupersessionCause) (h : Yard s t) : Yard s (Machine.interlockCause k c t) := by
  unfold Machine.interlockCause
  split
  · exact h
  · dsimp only
    refine serve _ ?_
    split
    · exact addClosures _ _ _ (withdrawOpens _ _ h)
    · exact handOver _ (addClosures _ _ _ (withdrawOpens _ _ h))

theorem withdrawFromNewStation (a : Nat) (h : Yard s t) : Yard s (Machine.withdrawFromNewStation a t) :=
  serve _ (withdrawOpens _ _ h)

/-! ### Endings of orders -/

theorem handCloseEnding (o : Order) (d r : Bool) (h : Yard s t) : Yard s (Machine.handCloseEnding o d r t) := by
  unfold Machine.handCloseEnding
  split
  · exact h
  · exact closeEnded _ _ _ _ h

theorem orderFailed (o : Order) (h : Yard s t) : Yard s (Machine.orderFailed o t) := by
  unfold Machine.orderFailed
  split
  · exact oweRefusal _ _ _ h
  · exact handCloseEnding _ _ _ h
  · split
    · exact setFailed _ _ _ h
    · exact raiseAlarm _ h

theorem replyTimerExpired (a : Nat) (h : Yard s t) : Yard s (Machine.replyTimerExpired a t) := by
  unfold Machine.replyTimerExpired
  split
  · exact h
  · split
    · split
      · exact slot _ _ h
      · exact serve _ (orderFailed _ (emptySlot _ h))
    · exact h

theorem officeCompletion (o : Order) (body : List Byte) (h : Yard s t) : Yard s (Machine.officeCompletion o body t) := by
  unfold Machine.officeCompletion
  split
  · split
    · exact h
    · exact governorCompletion _ _ _ _ h
  · exact h

theorem automaticCompletion (o : Order) (body : List Byte) (h : Yard s t) :
    Yard s (Machine.automaticCompletion o body t) := by
  unfold Machine.automaticCompletion
  split
  · exact h
  · exact handCloseEnding _ _ _ h
  · exact judgeOrderFailed _ _ (governorCompletion _ _ _ _ h)

theorem completeOrder (a : Nat) (o : Order) (body : List Byte) (h : Yard s t) :
    Yard s (Machine.completeOrder a o body t) := by
  unfold Machine.completeOrder
  refine serve _ ?_
  split
  · exact officeCompletion _ _ (emptySlot _ h)
  · exact automaticCompletion _ _ (emptySlot _ h)

theorem copyTransmitted (a n : Nat) (h : Yard s t) : Yard s (Machine.copyTransmitted a n t) := by
  unfold Machine.copyTransmitted
  refine h.trans (.station _ _ _ (fun e => ?_) (fun he e hm => ?_))
  · repeat' split
    all_goals rfl
  · have := he e hm
    repeat' split
    all_goals exact this

theorem clearOrder (o : Order) (h : Yard s t) : Yard s (Machine.clearOrder t o) := by
  unfold Machine.clearOrder
  split
  · exact oweSuperseded _ _ h
  · exact h
  · split
    · exact setFailed _ _ _ h
    · exact h

theorem clearOrders (a : Nat) (h : Yard s t) : Yard s (Machine.clearOrders a t) := by
  unfold Machine.clearOrders
  split
  · exact h
  · exact foldl (fun o h => clearOrder o h) _ (setList _ _ (fun _ => Nat.zero_le _) (emptySlot _ h))

theorem endSequence (a : Nat) (h : Yard s t) : Yard s (Machine.endSequence a t) := by
  unfold Machine.endSequence
  split
  · exact h
  · split
    · exact h
    · exact dropSequence _ _ h

/-! ### Stock Reckoning Unit -/

theorem putHolder (k : Nat) (x : Holder) (h : Yard s t) : Yard s (t.putHolder k x) := h.trans (.holder _ _ _)

theorem formYardStock (h : Yard s t) : Yard s (Machine.formYardStock t) := h.trans (.stock _)

theorem oweHolderState (k : Nat) (h : Yard s t) : Yard s (Machine.oweHolderState k t) :=
  oweReference _ (fun _ => by simp) h

theorem raiseCondition (k : Nat) (c : Condition) (h : Yard s t) : Yard s (Machine.raiseCondition k c t) := by
  unfold Machine.raiseCondition
  split
  · exact h
  · exact raiseAlarm _ h

theorem clearCondition (k : Nat) (c : Condition) (h : Yard s t) : Yard s (Machine.clearCondition k c t) := by
  unfold Machine.clearCondition
  split
  · exact h
  · exact clearAlarm _ h

theorem conditionChange (k : Nat) (c : Condition) (h : Yard s t) : Yard s (Machine.conditionChange k c t) := by
  unfold Machine.conditionChange
  split
  · exact h
  · rename_i r hr
    dsimp only
    have h1 := oweHolderState k (putHolder k { r with condition := c } (raiseCondition k c (clearCondition k r.condition h)))
    have h2 := fun cause => interlockCause k cause h1
    split
    · refine recomputeSupply ?_
      split
      · exact h1
      · exact h2 _
    · split
      · exact h1
      · exact h2 _

theorem becomeBlind (k : Nat) (h : Yard s t) : Yard s (Machine.becomeBlind k t) := by
  unfold Machine.becomeBlind
  split
  · exact h
  · split
    · exact h
    · exact handStockPartial (interlockCause _ _ (oweHolderState _ (raiseAlarm _ (putHolder _ _ h))))

theorem endBlindness (k : Nat) (h : Yard s t) : Yard s (Machine.endBlindness k t) := by
  unfold Machine.endBlindness
  split
  · exact h
  · exact oweHolderState _ (clearAlarm _ (putHolder _ _ h))

theorem overTopChange (k : Nat) (b c : Bool) (h : Yard s t) : Yard s (Machine.overTopChange k b c t) := by
  unfold Machine.overTopChange
  split
  · exact h
  · split
    · exact raiseAlarm _ h
    · exact clearAlarm _ h

theorem reckon (k : Nat) (g : Int) (h : Yard s t) : Yard s (Machine.reckon k g t) := by
  unfold Machine.reckon
  split
  · exact h
  · rename_i r hr
    dsimp only
    have h1 := overTopChange k r.overTop (reckoned r g t).overTop (formYardStock (putHolder k (reckoned r g t) h))
    have h2 : Yard s (if r.blind then Machine.endBlindness k
          (Machine.overTopChange k r.overTop (reckoned r g t).overTop
            (Machine.formYardStock (t.putHolder k (reckoned r g t))))
        else Machine.overTopChange k r.overTop (reckoned r g t).overTop
            (Machine.formYardStock (t.putHolder k (reckoned r g t)))) := by
      split
      · exact endBlindness _ h1
      · exact h1
    have h3 : ∀ {p : Prop} [Decidable p] {u : State} {c : Condition}, Yard s u →
        Yard s (if p then u else Machine.conditionChange k c u) := by
      intro p _ u c hu
      split
      · exact hu
      · exact conditionChange _ _ hu
    split
    · exact h3 h2
    · exact recomputeSupply (h3 h2)

theorem gaugeUpdate (u : PointUpdate) (k : Nat) (h : Yard s t) : Yard s (Machine.gaugeUpdate u k t) := by
  unfold Machine.gaugeUpdate
  split
  · exact reckon _ _ h
  · exact becomeBlind _ h
  · exact becomeBlind _ h
  · exact becomeBlind _ h
  · exact h

theorem pressureUpdate (k : Nat) (h : Yard s t) : Yard s (Machine.pressureUpdate k t) := by
  unfold Machine.pressureUpdate
  split
  · exact h
  · dsimp only
    split
    · exact h
    · exact recomputeSupply (putHolder _ _ h)

theorem holderUpdate (u : PointUpdate) (k : Nat) (h : Yard s t) : Yard s (Machine.holderUpdate u t k) := by
  unfold Machine.holderUpdate
  split
  · exact h
  · split
    · dsimp only
      have h1 : ∀ {p : Prop} [Decidable p], Yard s (if p then Machine.gaugeUpdate u k t else t) := by
        intro p _
        split
        · exact gaugeUpdate _ _ h
        · exact h
      split
      · exact pressureUpdate _ h1
      · exact h1
    · exact h

theorem stockUpdate (u : PointUpdate) (h : Yard s t) : Yard s (Machine.stockUpdate u t) :=
  foldl (fun k h => holderUpdate u k h) _ h

theorem bringIn (k : Nat) (h : Yard s t) : Yard s (Machine.bringIn k t) := by
  unfold Machine.bringIn
  split
  · exact h
  · rename_i r hr
    dsimp only
    have h1 := handStockPartial (recomputeSupply (oweHolderState k (formYardStock (putHolder k
      { r with inReckoning := true, condition := .normal, blind := true, quality := .stale, overTop := false } h))))
    split
    · exact h1
    · exact reckon _ _ h1

theorem takeOut (k : Nat) (h : Yard s t) : Yard s (Machine.takeOut k t) := by
  unfold Machine.takeOut
  split
  · exact h
  · exact handStockPartial (recomputeSupply (interlockCause _ _ (oweHolderState _ (formYardStock (putHolder _ _
      (clearAlarm _ (clearAlarm _ (clearCondition _ _ h))))))))

/-! ### A point's hand-over -/

theorem handUpdate (u : PointUpdate) (h : Yard s t) : Yard s (Machine.handUpdate u t) :=
  schedulerUpdate _ (accountUpdate _ (stockUpdate _ h))

end Sys2Proof.Laws.Yard
end

