-- ==== Sys2Proof/Laws/Part.lean ====
section
/-! SUPPORT. What a command outside a restart can do to the directory, the lists of alarms and reports, and the books:
every one of them is a run of the primitive changes named here. -/

namespace Sys2Proof.Laws

open Sys2Proof.Machine

/-- Nothing has changed that the primitive changes of Part speak of. -/
structure Quiet (s t : State) : Prop where
  unit : t.unit = s.unit
  directory : t.directory = s.directory
  strangers : t.strangers = s.strangers
  alarms : t.alarms = s.alarms
  backlog : t.backlog = s.backlog
  clock : t.clock = s.clock
  currentBook : t.currentBook = s.currentBook
  previousBook : t.previousBook = s.previousBook

/-- The runs of primitive changes that commands outside a restart make. -/
inductive Part : State → State → Prop
  | refl (s : State) : Part s s
  | trans {s t u : State} : Part s t → Part t u → Part s u
  | yard {s t : State} : Yard s t → Part s t
  | quiet {s t : State} : Quiet s t → Part s t
  | held (s : State) (e : Entry) (rest : List Entry) (x : HeldReport) : s.backlog = e :: rest →
      ((∀ y, e.held = some y → y.remaining.length ≤ 3) → x.remaining.length ≤ 3) →
      Part s { s with backlog := { e with held := some x } :: rest }
  | retire (s : State) (e : Entry) (rest : List Entry) : s.backlog = e :: rest → Part s (retireHead e rest s)
  | entry (s : State) (a : Nat) (f : Station → Station) :
      (∀ e, (f e).address = e.address ∧ (f e).pendingList = e.pendingList) → Part s (s.modStation a f)
  | place (s : State) (a : Nat) (body : List Byte) (e : Station) : s.station a = some e → listHasRoom e = true →
      Part s (placeOffice a body s)
  | stranger (s : State) (a : Nat) (b : Branch) : s.station a = none → Part s (hearStranger a b s)
  | forget (s : State) (a : Nat) : Part s { s with strangers := s.strangers.filter (fun e => e.address != a) }
  | newStation (s : State) (x : StationFields) : s.station x.address = none →
      s.directory.length < Config.directoryEntries → Part s (storeStation x s)
  | without (s : State) (a : Nat) : Part s { s with directory := s.directory.filter (fun e => e.address != a) }
  | clock (s : State) (c : Clock) : c.valid = s.clock.valid → Part s { s with clock := c }
  | hour (s : State) : Part s (takeHourDue s)
  | firstClock (s : State) (d t : Nat) : s.clock.valid = false →
      Part s (let v := { s with clock := { s.clock with valid := true, dayCount := d, timeOfDay := t } }
        openPresentHour (openBook v.yardStock v))
  | forcedClock (s : State) (d t : Nat) : s.clock.valid = true → Part s (setForced d t s)
  | collect (s : State) :
      Part s { s with previousBook := s.previousBook.map (fun b => { b with collected := true }) }
  | pend (s : State) (k : RestartKind) : isRestarting s = false → Part s (pendRestart k s)

namespace Part

variable {s t u : State}

theorem lineOnly (h : LineOnly s t) : Part s t := by
  rw [h]
  exact .quiet ⟨rfl, rfl, rfl, rfl, rfl, rfl, rfl, rfl⟩

theorem line (h : Part s t) (k : LineOnly t u) : Part s u := h.trans (lineOnly k)

theorem foldl {α : Type} {f : State → α → State} (hf : ∀ {s t : State} (x : α), Part s t → Part s (f t x)) (l : List α)
    (h : Part s t) : Part s (l.foldl f t) := by
  induction l generalizing t with
  | nil => exact h
  | cons x l ih => exact ih (hf x h)

/-- Laws of the yard's operations, continued in a run. -/
theorem andYard (h : Part s t) (k : Yard t u) : Part s u := h.trans (.yard k)

/-! ### Sends, reports, claims -/

theorem claims (l : List Claim) (h : Part s t) : Part s { t with claims := l } :=
  h.trans (.quiet ⟨rfl, rfl, rfl, rfl, rfl, rfl, rfl, rfl⟩)

theorem takeForSend {a : Nat} {e : Station} {o : Order} {bs : List Buffer}
    (hx : Machine.takeForSend a t = some (e, o, bs, u)) (h : Part s t) : Part s u := by
  unfold Machine.takeForSend at hx
  split at hx
  · cases hx
  · split at hx
    · cases hx
    · split at hx
      · cases hx
      · rename_i bs' v hv
        simp only [Option.some.injEq, Prod.mk.injEq] at hx
        rw [hx.2.2.2] at hv
        exact h.line (LineOnly.takeUrgentMany hv (.refl _))

theorem makeSend (e : Station) (o : Order) (bs : List Buffer) (h : Part s t) : Part s (Machine.makeSend e o bs t).2 := by
  have h1 : Part s (Machine.nextSerial t) := h.andYard (.serial _)
  exact (h1.line (LineOnly.queueCopies { o with sends := o.sends + 1 } t.serial ((copyPorts e.branch).zip bs)
    (.refl _))).trans (.entry _ _ _ (fun _ => ⟨rfl, rfl⟩))

theorem reportParts (s : State) (f : EntryForm) : (reportContent s f).parts.length ≤ 3 := by
  unfold reportContent
  split <;> (try split) <;> (try split) <;> (try split) <;> simp [dayContent, goneDayContent]

theorem takeForReport {c : ReportContent} {b : Buffer} (hx : Machine.takeForReport c t = some (b, u)) : LineOnly t u := by
  unfold Machine.takeForReport at hx
  split at hx
  · exact LineOnly.takeUrgent hx (.refl _)
  · exact LineOnly.takeGeneral hx (.refl _)

theorem sendPart {b : Bool} (hx : Machine.sendPart b t = some u) (h : Part s t) : Part s u := by
  unfold Machine.sendPart at hx
  split at hx
  · cases hx
  · rename_i e rest he
    dsimp only at hx
    split at hx
    · cases hx
      exact h.trans (.retire _ _ _ he)
    · rename_i part parts hp
      split at hx
      · cases hx
      · rename_i b' v hv
        have hl : LineOnly t (if b = true then Machine.holdingTest v else v) := by
          split
          · exact (takeForReport hv).holdingTest
          · exact takeForReport hv
        generalize hw : (if b = true then Machine.holdingTest v else v) = w at hl hx
        generalize hq : Machine.enqueue _ _ _ w = q at hx
        have hl : LineOnly t q := hq ▸ hl.enqueue _ _ _
        have hb : q.backlog = e :: rest := by
          rw [hl]
          exact he
        split at hx
        · cases hx
          exact (h.line hl).trans (.retire _ _ _ hb)
        · rename_i part' parts'
          cases hx
          refine (h.line hl).trans (.held _ _ _ _ hb ?_)
          intro hy
          have hlen : (part :: part' :: parts').length ≤ 3 := by
            rw [← hp]
            cases hh : e.held with
            | none => exact reportParts _ _
            | some y => exact hy y hh
          simp only [List.length_cons] at hlen ⊢
          omega

theorem claimForBacklog (h : Part s t) : Part s (Machine.claimForBacklog t) := by
  unfold Machine.claimForBacklog
  split
  · exact h
  · exact h.claims _

theorem sendReports (b : Bool) (n : Nat) (h : Part s t) : Part s (Machine.sendReports b n t) := by
  induction n generalizing t with
  | zero => exact h
  | succ n ih =>
    unfold Machine.sendReports
    split
    · exact h
    · split
      · rename_i hv
        exact ih (sendPart hv h)
      · exact claimForBacklog h

theorem offerClaim {c : Claim} {bs : List Buffer} (hx : Machine.offerClaim c t = some (bs, u)) (h : Part s t) :
    Part s u := by
  unfold Machine.offerClaim at hx
  split at hx
  · split at hx
    · cases hx
    · rename_i hv
      simp only [Option.some.injEq] at hx
      rw [← show (Machine.makeSend _ _ _ (withdrawClaim (.send _) _)).2 = u from congrArg Prod.snd hx]
      exact makeSend _ _ _ (claims _ (takeForSend hv h))
  · split at hx
    · cases hx
    · rename_i hv
      simp only [Option.some.injEq, Prod.mk.injEq] at hx
      rw [← hx.2]
      exact sendReports _ _ (claims _ (sendPart hv h))

theorem offerPass (l : List Claim) (h : Part s t) : Part s (Machine.offerPass l t).2 := by
  induction l generalizing t with
  | nil => exact h
  | cons c l ih =>
    unfold Machine.offerPass
    split
    · split
      · exact ih h
      · rename_i hv
        exact ih (offerClaim hv h)
      · rename_i hv
        exact offerClaim hv h
    · exact ih h

theorem freeing (n : Nat) (b : Buffer) (h : Part s t) : Part s (Machine.freeing n b t) := by
  induction n generalizing b s t with
  | zero => exact (h.line (.releaseBuffer b (.refl _))).line (.holdingTest (.refl _))
  | succ n ih =>
    exact (foldl (fun b h => ih b h) _ (offerPass _ (h.line (.releaseBuffer b (.refl _))))).line (.holdingTest (.refl _))

theorem freeBuffer (b : Buffer) (h : Part s t) : Part s (Machine.freeBuffer b t) := freeing _ b h

theorem freeBuffers (bs : List Buffer) (h : Part s t) : Part s (Machine.freeBuffers bs t) :=
  foldl (fun b h => freeBuffer b h) bs h

theorem serve (a : Nat) (h : Part s t) : Part s (Machine.serve a t) := h.andYard (Yard.serve a (.refl _))

theorem attemptSend (a : Nat) (h : Part s t) : Part s (Machine.attemptSend a t) := by
  have hs := serve a h
  unfold Machine.attemptSend
  dsimp only
  split
  · exact hs.claims _
  · rename_i hv
    exact freeBuffers _ (makeSend _ _ _ ((takeForSend hv hs).line (.holdingTest (.refl _))))

/-! ### Points and converters -/

theorem putPoint (n : Nat) (x : Option Point) (h : Part s t) : Part s (t.putPoint n x) :=
  h.trans (.quiet ⟨rfl, rfl, rfl, rfl, rfl, rfl, rfl, rfl⟩)

theorem handUpdate (v : PointUpdate) (h : Part s t) : Part s (Machine.handUpdate v t) := h.andYard (.handUpdate v (.refl _))

theorem takeEntry (source : Nat) (e : RawEntry) (h : Part s t) : Part s (Machine.takeEntry source t e) := by
  unfold Machine.takeEntry
  split
  · exact h
  · split
    · exact h
    · exact handUpdate _ (putPoint _ _ h)

theorem convertSample (source : Nat) (body : List Byte) (h : Part s t) : Part s (Machine.convertSample source body t) := by
  unfold Machine.convertSample
  split
  · exact foldl (fun e h => takeEntry source e h) _ h
  · exact h

theorem stalePoint (a n : Nat) (h : Part s t) : Part s (Machine.stalePoint a t n) := by
  unfold Machine.stalePoint
  split
  · exact h
  · split
    · exact handUpdate _ (putPoint _ _ h)
    · exact h

theorem stalePoints (a : Nat) (h : Part s t) : Part s (Machine.stalePoints a t) := foldl (fun n h => stalePoint a n h) _ h

/-! ### The Relay Unit -/

theorem learnBranch_keeps (b : Branch) (e : Station) :
    (learnBranch b e).address = e.address ∧ (learnBranch b e).pendingList = e.pendingList := by
  unfold learnBranch
  split
  · exact ⟨rfl, rfl⟩
  · split <;> exact ⟨rfl, rfl⟩

theorem hearStation (e : Station) (b : Branch) (h : Part s t) : Part s (Machine.hearStation e b t) := by
  have h1 : Part s (t.modStation e.address (learnBranch b)) := h.trans (.entry _ _ _ (learnBranch_keeps b))
  have h2 : Part s (if e.branch = some b.other then raiseAlarm (alarmKey .stationMoved e.address)
      (t.modStation e.address (learnBranch b)) else t.modStation e.address (learnBranch b)) := by
    split
    · exact h1.andYard (.raiseAlarm _ (.refl _))
    · exact h1
  unfold Machine.hearStation
  dsimp only
  generalize (if e.branch = some b.other then raiseAlarm (alarmKey .stationMoved e.address)
      (t.modStation e.address (learnBranch b)) else t.modStation e.address (learnBranch b)) = v at h2
  have h3 : Part s (v.modStation e.address (markHeard v.timeNow)) := h2.trans (.entry _ _ _ (fun _ => ⟨rfl, rfl⟩))
  split
  · exact h3
  · exact h3.andYard (.clearAlarm _ (.refl _))

theorem hear (a : Nat) (b : Branch) (h : Part s t) : Part s (Machine.hear a b t) := by
  unfold Machine.hear
  split
  · exact hearStation _ _ h
  · rename_i hn
    exact h.trans (.stranger _ _ _ hn)

theorem goSilent (a : Nat) (h : Part s t) : Part s (Machine.goSilent a t) :=
  stalePoints _ ((h.trans (.entry t a (fun e => { e with waitingTimer := .stopped, liveness := .silent })
    (fun _ => ⟨rfl, rfl⟩))).andYard (.raiseAlarm _ (.refl _)))

theorem enqueue (p : Port) (b : Bool) (x : Telegram) (h : Part s t) : Part s (Machine.enqueue p b x t) :=
  h.line (.enqueue _ _ _ (.refl _))

theorem forwardField (r : Received) (b : Branch) (urgent : Bool) (x : Option (List Byte)) (h : Part s t) :
    Part s (Machine.forwardField r b urgent x t) := by
  unfold Machine.forwardField
  split
  · exact freeBuffer _ h
  · split
    · split
      · exact freeBuffer _ h
      · exact enqueue _ _ _ h
    · exact freeBuffer _ h

theorem takeReceived {p : Port} {r : Received} (hx : Machine.takeReceived p t = some (r, u)) : LineOnly t u := by
  unfold Machine.takeReceived at hx
  cases hf : firstOfPort p t.line.received with
  | none => simp [hf] at hx
  | some x =>
    simp only [hf, Option.map_some, Option.some.injEq, Prod.mk.injEq] at hx
    rw [← hx.2]
    exact .line _ _

theorem passSample (r : Received) (b : Branch) (h : Part s t) : Part s (Machine.passSample r b t) :=
  forwardField _ _ _ _ (convertSample _ _ (hear _ _ h))

theorem interlockReply (a : Nat) (body : List Byte) (h : Part s t) : Part s (Machine.interlockReply a body t) := by
  unfold Machine.interlockReply
  split
  · exact h
  · exact h.andYard (.takeValveStates _ _ (.refl _))

theorem passReply (r : Received) (b : Branch) (h : Part s t) : Part s (Machine.passReply r b t) := by
  have h1 := interlockReply (sourceOf r.octets) (bodyOf r.octets) (hear (sourceOf r.octets) b h)
  unfold Machine.passReply
  dsimp only
  split
  · exact forwardField _ _ _ _ h1
  · rename_i o _
    have h2 := h1.andYard (Yard.completeOrder (sourceOf r.octets) o (bodyOf r.octets) (.refl _))
    split
    · unfold Machine.forwardCompletion
      split
      · exact enqueue _ _ _ h2
      · exact freeBuffer _ h2
    · exact freeBuffer _ h2

theorem passField (p : Port) (pass : Received → Branch → State → State)
    (hp : ∀ {s t : State} r b, Part s t → Part s (pass r b t)) (h : Part s t) : Part s (Machine.passField p pass t) := by
  unfold Machine.passField
  split
  · rename_i hr
    exact hp _ _ (h.line (takeReceived hr))
  · exact h

theorem drainOne (hx : Machine.drainOne t = some u) (h : Part s t) : Part s u := by
  unfold Machine.drainOne at hx
  split at hx
  · cases hx
  · rename_i hr
    have hl := h.line (takeReceived hr)
    split at hx
    · split at hx
      · cases hx
        exact freeBuffer _ hl
      · split at hx
        · cases hx
        · cases hx
          exact enqueue _ _ _ hl
    · cases hx

theorem drainOffice (n : Nat) (h : Part s t) : Part s (Machine.drainOffice n t) := by
  induction n generalizing t with
  | zero => exact h
  | succ n ih =>
    unfold Machine.drainOffice
    split
    · exact h
    · rename_i hv
      exact ih (drainOne hv h)

theorem drain (h : Part s t) : Part s (Machine.drain t) := drainOffice _ h

theorem forwardBoth (r : Received) (h : Part s t) : Part s (Machine.forwardBoth r t) := by
  unfold Machine.forwardBoth
  split
  · have h1 : Part s (ownCopy r .n t) := enqueue _ _ _ h
    unfold Machine.furtherCopy
    split
    · exact h1.line (.modPort _ _ (.refl _))
    · rename_i hv
      exact h1.line ((LineOnly.takeGeneral hv (.refl _)).holdingTest.enqueue _ _ _)
  · exact enqueue _ _ _ h
  · exact enqueue _ _ _ h
  · exact freeBuffer _ h

theorem refuseCommand (r : Received) (a : Nat) (x : RefusalReason) (h : Part s t) :
    Part s (Machine.refuseCommand r a x t) := (freeBuffer _ h).andYard (.oweRefusal _ _ _ (.refl _))

theorem passCommand (r : Received) (h : Part s t) : Part s (Machine.passCommand r t) := by
  unfold Machine.passCommand
  dsimp only
  split
  · exact freeBuffer _ h
  · split
    · exact forwardBoth _ h
    · split
      · exact refuseCommand _ _ _ h
      · unfold Machine.dispatchCommand
        split
        · split
          · rename_i hs hr
            exact freeBuffer _ (h.trans (.place _ _ _ _ hs hr))
          · exact refuseCommand _ _ _ h
        · split
          · unfold Machine.forwardOne
            split
            · exact enqueue _ _ _ h
            · exact freeBuffer _ h
          · exact forwardBoth _ h

theorem passOffice (h : Part s t) : Part s (Machine.passOffice t) := by
  unfold Machine.passOffice
  split
  · exact h
  · rename_i hr
    exact drain (passCommand _ (h.line (takeReceived hr)))

/-! ### The ports and the Local Converter -/

theorem setReceiver (p : Port) (r : Receiver) (h : Part s t) : Part s (Machine.setReceiver p r t) :=
  h.line (.modPort _ _ (.refl _))

theorem startReception (p : Port) (o : Byte) (b : Bool) (h : Part s t) : Part s (Machine.startReception p o b t) := by
  unfold Machine.startReception
  split
  · rename_i hv
    exact (setReceiver _ _ (h.line (LineOnly.takeGeneral hv (.refl _)))).line (.holdingTest (.refl _))
  · exact setReceiver _ _ h

theorem takeOctet (p : Port) (o : Byte) (b : Bool) (h : Part s t) : Part s (Machine.takeOctet p o b t) := by
  unfold Machine.takeOctet
  split
  · exact h
  · exact setReceiver _ _ h
  · exact setReceiver _ _ h

theorem goodTelegram (p : Port) (b : Buffer) (octets : List Byte) (h : Part s t) :
    Part s (Machine.goodTelegram p b octets t) := by
  have h1 : Part s (t.modPort p (fun q => { q with good := countUp q.good })) := h.line (.modPort _ _ (.refl _))
  unfold Machine.goodTelegram
  dsimp only
  generalize t.modPort p (fun q => { q with good := countUp q.good }) = v at h1
  have h2 := h1.line (.line v { v.line with received := v.line.received ++ [⟨p, b, octets⟩] })
  split
  · exact drain h2
  · exact h2

theorem endFrame (p : Port) (h : Part s t) : Part s (Machine.endFrame p t) := by
  have h1 : Part s (idleReceiver p t) := h.line (.modPort _ _ (.refl _))
  unfold Machine.endFrame
  split
  · exact h
  · dsimp only
    split
    · exact goodTelegram _ _ _ h1
    · exact freeBuffer _ (h1.line (.modPort _ _ (.refl _)))
  · exact h1.line (.modPort _ _ (.refl _))

theorem chooseNext (p : Port) (h : Part s t) : Part s (Machine.chooseNext p t) := h.line (.modPort _ _ (.refl _))

theorem handCopyEnd (x : Tag) (h : Part s t) : Part s (Machine.handCopyEnd x t) := by
  unfold Machine.handCopyEnd
  split
  · exact h.andYard (.copyTransmitted _ _ (.refl _))
  · exact h

/-- The end of a transmission, before a pending restart begins. -/
theorem transmitted (p : Port) (x : Telegram) (h : Part s t) :
    Part s (separate p (Machine.freeBuffer x.buffer (Machine.handCopyEnd x.tag
      (t.modPort p (fun q => { q with sent := countUp q.sent }))))) :=
  (freeBuffer _ (handCopyEnd _ (h.line (.modPort _ _ (.refl _))))).line (.modPort _ _ (.refl _))

theorem finishScan (codes : List Nat) (h : Part s t) : Part s (Machine.finishScan codes t) := by
  have h1 : Part s { t with localConverter := { t.localConverter with scanning := false } } :=
    h.trans (.quiet ⟨rfl, rfl, rfl, rfl, rfl, rfl, rfl, rfl⟩)
  have h2 := convertSample ownAddress (bodyOf (localSample t.localConverter codes)) h1
  unfold Machine.finishScan
  dsimp only
  split
  · exact h2
  · unfold queueLocal
    split
    · exact h2
    · rename_i hv
      exact h2.line ((LineOnly.takeGeneral hv (.refl _)).holdingTest.enqueue _ _ _)

/-! ### Requests -/

theorem judge (checks : List (Bool × ResultCode)) (act : State → State)
    (ha : firstFailure checks = none → Part s (act t)) (h : Part s t) :
    Part s (Machine.judge checks act t).state := by
  unfold Machine.judge
  split
  · exact h
  · rename_i hn
    exact ha hn

theorem answerRequest (code : Nat) (perform : List Byte → State → Performed)
    (hp : ∀ {s t : State} f, Part s t → Part s (perform f t).state) (h : Part s t) :
    Part s (Machine.answerRequest code perform t) := by
  unfold Machine.answerRequest
  split
  · exact h
  · rename_i hr
    exact drain (enqueue _ _ _ (hp _ (h.line (takeReceived hr))))

end Part

end Sys2Proof.Laws
end

