-- ==== Sys2Proof/Laws/PartCommands.lean ====
section
/-! SUPPORT. Every command that neither begins nor completes a restart is a run of the primitive changes of Part. -/

namespace Sys2Proof.Laws

open Sys2Proof.Machine

namespace Part

variable {s t u : State}

/-! ### Requests -/

theorem storeSettings (x : Settings) (h : Part s t) : Part s (Machine.storeSettings x t) :=
  (h.trans (u := { t with settings := x }) (.quiet ⟨rfl, rfl, rfl, rfl, rfl, rfl, rfl, rfl⟩)).line (.holdingTest (.refl _))

theorem loadSettings (f : List Byte) (h : Part s t) : Part s (Machine.loadSettings f t).state := by
  refine judge _ _ (fun _ => ?_) h
  split
  · exact h
  · exact storeSettings _ h

theorem loadStation (f : List Byte) (h : Part s t) : Part s (Machine.loadStation f t).state := by
  refine judge _ _ (fun hn => ?_) h
  simp only [firstFailure_cons, firstFailure_nil] at hn
  unfold storeStation
  split
  · exact h.trans (.entry _ _ _ (fun _ => ⟨rfl, rfl⟩))
  · rename_i hs
    have hl : t.directory.length < Config.directoryEntries := by
      by_contra hl
      simp [hs, Nat.le_of_not_lt hl] at hn
      split at hn
      · cases hn
      · split at hn <;> cases hn
    have hp := h.trans (.newStation t _ hs hl)
    unfold storeStation at hp
    rw [hs] at hp
    exact hp

theorem removeStation (a : Nat) (h : Part s t) : Part s (Machine.removeStation a t) := by
  have h1 : Part s (endSequence a (clearOrders a t)) := h.andYard (Yard.endSequence a (Yard.clearOrders a (.refl _)))
  have h2 := h1.trans (.entry _ a (fun e => { e with waitingTimer := .stopped }) (fun _ => ⟨rfl, rfl⟩))
  exact (h2.andYard (.clearAlarm (alarmKey .stationSilent a) (.refl _))).trans (.without _ _)

theorem dropStation (f : List Byte) (h : Part s t) : Part s (Machine.dropStation f t).state :=
  judge _ _ (fun _ => removeStation _ h) h

theorem handNone (n : Nat) (x : Option Point) (h : Part s t) : Part s (Machine.handNone n x t) := by
  unfold Machine.handNone
  split
  · exact h
  · exact handUpdate _ h

theorem loadPoint (f : List Byte) (h : Part s t) : Part s (Machine.loadPoint f t).state := by
  refine judge _ _ (fun _ => ?_) h
  unfold storePoint
  split
  · exact handNone _ _ (putPoint _ _ h)
  · exact h

theorem dropPoint (f : List Byte) (h : Part s t) : Part s (Machine.dropPoint f t).state :=
  judge _ _ (fun _ => handNone _ _ (putPoint _ _ h)) h

theorem loadVapour (f : List Byte) (h : Part s t) : Part s (Machine.loadVapour f t).state :=
  judge _ _ (fun _ => h.trans (.quiet ⟨rfl, rfl, rfl, rfl, rfl, rfl, rfl, rfl⟩)) h

theorem converter (c : LocalConverter) (h : Part s t) : Part s { t with localConverter := c } :=
  h.trans (.quiet ⟨rfl, rfl, rfl, rfl, rfl, rfl, rfl, rfl⟩)

theorem loadLocal (f : List Byte) (h : Part s t) : Part s (Machine.loadLocal f t).state := by
  refine judge _ _ (fun _ => ?_) h
  unfold setLocal
  dsimp only
  split
  · exact converter _ h
  · split
    · exact converter _ h
    · exact stalePoints _ (converter _ h)

end Part

namespace Yard

variable {s t : State}

theorem clearCloseFailures (k : Nat) (h : Yard s t) : Yard s (Machine.clearCloseFailures k t) :=
  foldl (fun _ h => clearAlarm _ h) _ h

theorem storeHolder (f : List Byte) (h : Yard s t) : Yard s (Machine.storeHolder f t) := by
  unfold Machine.storeHolder
  extract_lets k a
  split
  · rename_i r _ _ _
    extract_lets
    have h1 := formYardStock (putHolder (octetAt f 0) (loadedHolder f r.lifts) h)
    split
    · exact h1
    · unfold moveRouting
      refine withdrawFromNewStation _ ?_
      split
      · exact clearCloseFailures _ (putRouting _ _ h1)
      · exact handOutletSet _ _ (clearCloseFailures _ (putRouting _ _ h1))
  · exact withdrawFromNewStation _ (writeOutletSet _ _ (putRouting _ _ (formYardStock (putHolder _ _ h))))

theorem storeLift (k n : Nat) (l : Lift) (h : Yard s t) : Yard s (Machine.storeLift k n l t) := by
  unfold Machine.storeLift
  split
  · exact h
  · exact formYardStock (putHolder _ _ h)

theorem setService (k : Nat) (b : Bool) (h : Yard s t) : Yard s (Machine.setService k b t) := by
  unfold Machine.setService
  split
  · exact h
  · split
    · exact h
    · split
      · exact bringIn _ h
      · exact takeOut _ h

theorem storeDistrict (f : List Byte) (h : Yard s t) : Yard s (Machine.storeDistrict f t) := by
  unfold Machine.storeDistrict
  dsimp only
  split
  · unfold firstLoad
    dsimp only
    split
    · exact putDistrict _ _ h
    · exact raiseAlarm _ (putDistrict _ _ h)
  · exact recomputeDistrict _ (putDistrict _ _ h)

theorem storeProfile (d : Nat) (l : List Breakpoint) (h : Yard s t) : Yard s (Machine.storeProfile d l t) := by
  unfold Machine.storeProfile
  split
  · exact h
  · exact putDistrict _ _ h

theorem setMode (d : Nat) (m : Mode) (h : Yard s t) : Yard s (Machine.setMode d m t) := by
  unfold Machine.setMode
  split
  · exact h
  · exact putDistrict _ _ h

theorem dropAutomaticSets (a : Nat) (h : Yard s t) : Yard s (Machine.dropAutomaticSets a t) := by
  unfold Machine.dropAutomaticSets
  split
  · exact h
  · rename_i hs
    exact filterList _ _ hs h

theorem supersedeOfficeOrders (a : Nat) (h : Yard s t) : Yard s (Machine.supersedeOfficeOrders a t) := by
  unfold Machine.supersedeOfficeOrders
  split
  · exact h
  · rename_i hs
    exact foldl (fun _ h => supersede _ _ h) _ (filterList _ _ hs h)

theorem changeMode (d : Nat) (m : Mode) (h : Yard s t) : Yard s (Machine.changeMode d m t) := by
  unfold Machine.changeMode
  split
  · exact h
  · split
    · exact h
    · refine oweSetpoint _ ?_
      split
      · exact issueRelease _ (setMode _ _ (clearAlarm _ h))
      · unfold enterManual
        split
        · exact setMode _ _ (dropAutomaticSets _ (clearAlarm _ h))
        · exact setMode _ _ h
      · exact stepBoundary _ (setMode _ _ (putDistrict _ _ (supersedeOfficeOrders _ h)))

theorem setFog (a b d : Nat) (h : Yard s t) : Yard s (Machine.setFog a b t d) := by
  unfold Machine.setFog
  split
  · exact h
  · exact putDistrict _ _ h

theorem storeMeter (f : List Byte) (h : Yard s t) : Yard s (Machine.storeMeter f t) := by
  unfold Machine.storeMeter
  split
  · exact h
  · dsimp only
    split
    · exact putMeter _ _ h
    · exact putMeter _ _ h

theorem addUnclocked (m : Nat) (h : Yard s t) : Yard s (Machine.addUnclocked t m) := by
  unfold Machine.addUnclocked
  split
  · exact h
  · exact modOpenHour _ (fun r => add_state _ _ _ _ r) (putMeter _ _ h)

theorem flagClockSet (h : Yard s t) : Yard s (Machine.flagClockSet t) := modOpenHour _ (fun _ => rfl) h

end Yard

namespace Part

variable {s t u : State}

/-- A request whose action is the yard's. -/
theorem yardRequest (checks : List (Bool × ResultCode)) (act : State → State) (ha : ∀ {s t : State}, Yard s t → Yard s (act t))
    (h : Part s t) : Part s (Machine.judge checks act t).state :=
  judge _ _ (fun _ => h.andYard (ha (.refl _))) h

theorem stepForward (d m k : Nat) (h : Part s t) : Part s (Machine.stepForward d m k t) := h.trans (.clock _ _ rfl)

theorem stepBackward (d m k : Nat) (h : Part s t) : Part s (Machine.stepBackward d m k t) := h.trans (.clock _ _ rfl)

theorem setUnforced (d m : Nat) (h : Part s t) : Part s (Machine.setUnforced d m t).2 := by
  unfold Machine.setUnforced
  extract_lets old new ahead behind
  by_cases h0 : ahead = 0
  · rw [if_pos h0]
    exact h
  · rw [if_neg h0]
    by_cases h1 : ahead ≤ Config.clockStepSeconds
    · rw [if_pos h1]
      exact stepForward _ _ _ h
    · rw [if_neg h1]
      by_cases h2 : behind ≤ Config.clockStepSeconds
      · rw [if_pos h2]
        exact stepBackward _ _ _ h
      · rw [if_neg h2]
        exact h

theorem setClockNow (d m : Nat) (b : Bool) (h : Part s t) : Part s (Machine.setClockNow d m b t).2 := by
  unfold Machine.setClockNow
  by_cases hv : (!t.clock.valid) = true
  · rw [if_pos hv]
    have h1 := h.trans (.firstClock t d m (by simpa using hv))
    exact h1.andYard (Yard.flagClockSet (Yard.foldl (fun m h => Yard.addUnclocked m h) _ (.refl _)))
  · rw [if_neg hv]
    by_cases hb : b = true
    · rw [if_pos hb]
      exact h.trans (.forcedClock _ _ _ (by simpa using hv))
    · rw [if_neg hb]
      exact setUnforced _ _ h

theorem setClock (f : List Byte) (h : Part s t) : Part s (Machine.setClock f t).state := by
  unfold Machine.setClock
  extract_lets d m
  split
  · exact h
  · exact setClockNow _ _ _ h

theorem collectDay (f : List Byte) (h : Part s t) : Part s (Machine.collectDay f t).state :=
  judge _ _ (fun _ => (h.trans (.collect _)).andYard (.clearAlarm _ (.refl _))) h

theorem readRequest (f : List Byte) (h : Part s t) : Part s (Machine.readRequest f t).state := by
  unfold Machine.readRequest
  dsimp only
  split
  · exact h
  · split
    · exact h
    · split
      · exact h
      · exact h.trans (.quiet ⟨rfl, rfl, rfl, rfl, rfl, rfl, rfl, rfl⟩)

theorem acknowledge (key : AlarmKey) (h : Part s t) : Part s (Machine.acknowledge key t) := by
  unfold Machine.acknowledge
  split
  · exact h
  · rename_i r hr
    have hk := Yard.findAlarm_key hr
    split
    · exact h.andYard (Yard.settleAlarmOverflow (Yard.dropAlarm _ (hk ▸ hr) (.refl _)))
    · refine h.andYard (.alarmFields _ _ fun q => ?_)
      split <;> exact ⟨rfl, rfl, fun h k => ⟨h, k⟩⟩

theorem ackAlarm (f : List Byte) (h : Part s t) : Part s (Machine.ackAlarm f t).state :=
  judge _ _ (fun _ => acknowledge _ h) h

/-! ### Commands -/

/-- An arrival's outcome is a run when its action is. -/
theorem ofArrival {arises : State → Bool} {act : State → State} (h : arrival arises act s = .next t)
    (ha : isRestarting s = false → Part s (act s)) : Part s t := by
  rcases arrival_cases h with rfl | ⟨hr, -, rfl⟩
  · exact .refl _
  · exact ha hr

/-- A request's outcome is a run when what it performs is. -/
theorem ofRequest {code : Nat} {perform : List Byte → State → Performed} (h : request code perform s = .next t)
    (hp : ∀ {s t : State} f, Part s t → Part s (perform f t).state) : Part s t :=
  ofArrival h (fun _ => answerRequest code perform hp (.refl _))

theorem ofReset (h : exec .reset s = .next t) : Part s t := by
  refine ofArrival (show execReset s = .next t from h) (fun hr => ?_)
  unfold Machine.answerRequest
  split
  · exact .refl _
  · rename_i r v hv
    have hl : LineOnly s v := takeReceived hv
    refine drain (enqueue _ _ _ (judge _ _ (fun _ => ?_) (lineOnly hl)))
    refine (lineOnly hl).trans (.pend _ _ ?_)
    rw [hl]
    exact hr

theorem ofTransmission {p : Port} (h : exec (.transmissionComplete p) s = .next t) (hr : isRestarting t = false) :
    Part s t := by
  rcases arrival_cases (show execTransmissionComplete p s = .next t from h) with rfl | ⟨-, -, rfl⟩
  · exact .refl _
  · unfold endTransmission at hr ⊢
    split at hr
    · exact .refl _
    · rename_i x hx
      dsimp only at hr ⊢
      have hp := transmitted p x (.refl s)
      generalize separate p (Machine.freeBuffer x.buffer (Machine.handCopyEnd x.tag
        (s.modPort p (fun q => { q with sent := countUp q.sent })))) = v at hp hr
      generalize x.tag = tag at hr
      cases tag with
      | plain => exact hp
      | orderCopy a n => exact hp
      | resetAnswer =>
        simp only [restartAfter, beginPending] at hr ⊢
        split
        · rename_i k hk
          rw [hk] at hr
          cases k <;> cases hr
        · exact hp

/-- Every command that neither begins nor completes a restart is a run of the primitive changes. -/
theorem ofExec {c : Instr} (h : exec c s = .next t) (hr : isRestarting t = false) (hc : c ≠ .restartComplete) :
    Part s t := by
  cases c with
  | powerOn =>
    cases h
    cases hr
  | restartComplete => exact absurd rfl hc
  | receptionStart p o b => exact ofArrival (show execReceptionStart p o b s = .next t from h) (fun _ => startReception _ _ _ (.refl _))
  | frameEnd p => exact ofArrival (show execFrameEnd p s = .next t from h) (fun _ => endFrame _ (.refl _))
  | sample p => exact ofArrival (show execSample p s = .next t from h) (fun _ => passField _ _ (fun _ _ h => passSample _ _ h) (.refl _))
  | reply p => exact ofArrival (show execReply p s = .next t from h) (fun _ => passField _ _ (fun _ _ h => passReply _ _ h) (.refl _))
  | officeCommand => exact ofArrival (show execOfficeCommand s = .next t from h) (fun _ => passOffice (.refl _))
  | orderSend a => exact ofArrival (show execOrderSend a s = .next t from h) (fun _ => attemptSend _ (.refl _))
  | replyTimerExpiry a => exact ofArrival (show execReplyTimerExpiry a s = .next t from h) (fun _ => .yard (.replyTimerExpired _ (.refl _)))
  | stepTimerExpiry d => exact ofArrival (show execStepTimerExpiry d s = .next t from h) (fun _ => .yard (.stepBoundary _ (.refl _)))
  | fogTimerExpiry d => exact ofArrival (show execFogTimerExpiry d s = .next t from h) (fun _ => .yard (.setFog _ _ _ (.refl _)))
  | clockSecond =>
    have hx : whenArises s.clock.valid advanceClock s = .next t := h
    unfold whenArises at hx
    split at hx
    · cases hx
      unfold advanceClock
      dsimp only
      split
      · exact .refl _
      · exact .clock _ _ rfl
    · cases hx
      exact .refl _
  | wholeHour => exact ofArrival (show execWholeHour s = .next t from h) (fun _ => .hour _)
  | waitingTimerExpiry a => exact ofArrival (show execWaitingTimerExpiry a s = .next t from h) (fun _ => goSilent _ (.refl _))
  | agingTimerExpiry a => exact ofArrival (show execAgingTimerExpiry a s = .next t from h) (fun _ => .forget _ _)
  | settleTimerExpiry => exact ofArrival (show execSettleTimerExpiry s = .next t from h) (fun _ => converter _ (.refl _))
  | scanTimerExpiry => exact ofArrival (show execScanTimerExpiry s = .next t from h) (fun _ => converter _ (.refl _))
  | scanComplete c0 c1 c2 c3 => exact ofArrival (show execScanComplete c0 c1 c2 c3 s = .next t from h) (fun _ => finishScan _ (.refl _))
  | transmitStart p => exact ofArrival (show execTransmitStart p s = .next t from h) (fun _ => chooseNext _ (.refl _))
  | transmissionComplete p => exact ofTransmission h hr
  | separationExpiry p => exact ofArrival (show execSeparationExpiry p s = .next t from h) (fun _ => chooseNext _ (.refl _))
  | repeatTimerExpiry => exact ofArrival (show execRepeatTimerExpiry s = .next t from h) (fun _ => lineOnly ((LineOnly.refl s).sendHold.holdingTest))
  | reportSend => exact ofArrival (show execReportSend s = .next t from h) (fun _ => sendReports _ _ (.refl _))
  | loadSettings => exact ofRequest (show execLoadSettings s = .next t from h) (fun f h => loadSettings f h)
  | loadStation => exact ofRequest (show execLoadStation s = .next t from h) (fun f h => loadStation f h)
  | dropStation => exact ofRequest (show execDropStation s = .next t from h) (fun f h => dropStation f h)
  | loadPoint => exact ofRequest (show execLoadPoint s = .next t from h) (fun f h => loadPoint f h)
  | dropPoint => exact ofRequest (show execDropPoint s = .next t from h) (fun f h => dropPoint f h)
  | loadVapour => exact ofRequest (show execLoadVapour s = .next t from h) (fun f h => loadVapour f h)
  | loadLocal => exact ofRequest (show execLoadLocal s = .next t from h) (fun f h => loadLocal f h)
  | loadHolder => exact ofRequest (show execLoadHolder s = .next t from h) (fun f h => yardRequest _ _ (fun h => Yard.storeHolder f h) h)
  | loadLift => exact ofRequest (show execLoadLift s = .next t from h) (fun f h => yardRequest _ _ (fun h => Yard.storeLift _ _ _ h) h)
  | holderService => exact ofRequest (show execHolderService s = .next t from h) (fun f h => yardRequest _ _ (fun h => Yard.setService _ _ h) h)
  | loadDistrict => exact ofRequest (show execLoadDistrict s = .next t from h) (fun f h => yardRequest _ _ (fun h => Yard.storeDistrict f h) h)
  | loadProfile => exact ofRequest (show execLoadProfile s = .next t from h) (fun f h => yardRequest _ _ (fun h => Yard.storeProfile _ _ h) h)
  | stepNow => exact ofRequest (show execStepNow s = .next t from h) (fun f h => yardRequest _ _ (fun h => Yard.stepBoundary _ h) h)
  | districtMode => exact ofRequest (show execDistrictMode s = .next t from h) (fun f h => yardRequest _ _ (fun h => Yard.changeMode _ _ h) h)
  | fog => exact ofRequest (show execFog s = .next t from h) (fun f h => judge _ _ (fun _ => h.andYard (Yard.foldl (fun d h => Yard.setFog _ _ d h) _ (.refl _))) h)
  | loadMeter => exact ofRequest (show execLoadMeter s = .next t from h) (fun f h => yardRequest _ _ (fun h => Yard.storeMeter f h) h)
  | setClock => exact ofRequest (show execSetClock s = .next t from h) (fun f h => setClock f h)
  | collectDay => exact ofRequest (show execCollectDay s = .next t from h) (fun f h => collectDay f h)
  | read => exact ofRequest (show execRead s = .next t from h) (fun f h => readRequest f h)
  | ackAlarm => exact ofRequest (show execAckAlarm s = .next t from h) (fun f h => ackAlarm f h)
  | reset => exact ofReset h
  | resetTimerExpiry =>
    rcases arrival_cases (show execResetTimerExpiry s = .next t from h) with rfl | ⟨-, ha, rfl⟩
    · exact .refl _
    · split at ha
      · rename_i k hk
        simp only [beginPending, hk] at hr
        cases k <;> cases hr
      · cases ha
  | octetArrives p o b => exact ofArrival (show execOctetArrives p o b s = .next t from h) (fun _ => takeOctet _ _ _ (.refl _))

end Part

end Sys2Proof.Laws
end

