-- ==== Sys2Proof/WellFormed.lean ====
section
/-! DEFINITION. Which commands are well formed: the ranges the spec gives their operands. -/

namespace Sys2Proof

/-- A field station's address (00_scope, Addresses): 1 to 239. -/
def isStationAddress (a : Nat) : Bool := decide (1 ≤ a ∧ a ≤ 239)

/-- A district's number (00_scope, Numbering of yard objects): 1 to 6. -/
def isDistrictNumber (d : Nat) : Bool := decide (1 ≤ d ∧ d ≤ 6)

/-- A conversion code of a local channel at the finest resolution (R14): 0 to 4,095. -/
def isConversionCode (c : Nat) : Bool := decide (c ≤ 4095)

/-- SAMPLE and REPLY telegrams are good only on the field branches N and S (R142). -/
def isFieldPort : Port → Bool
  | .o => false
  | .n => true
  | .s => true

/-- Every operand lies in the range its rule gives it. -/
def Instr.wf : Instr → Bool
  | .powerOn => true
  | .restartComplete => true
  | .receptionStart _ _ _ => true
  | .frameEnd _ => true
  | .sample p => isFieldPort p
  | .reply p => isFieldPort p
  | .officeCommand => true
  | .orderSend a => isStationAddress a
  | .replyTimerExpiry a => isStationAddress a
  | .stepTimerExpiry d => isDistrictNumber d
  | .fogTimerExpiry d => isDistrictNumber d
  | .clockSecond => true
  | .wholeHour => true
  | .waitingTimerExpiry a => isStationAddress a
  | .agingTimerExpiry a => isStationAddress a
  | .settleTimerExpiry => true
  | .scanTimerExpiry => true
  | .scanComplete a b c d => isConversionCode a && isConversionCode b && isConversionCode c && isConversionCode d
  | .transmitStart _ => true
  | .transmissionComplete _ => true
  | .separationExpiry _ => true
  | .repeatTimerExpiry => true
  | .reportSend => true
  | .loadSettings => true
  | .loadStation => true
  | .dropStation => true
  | .loadPoint => true
  | .dropPoint => true
  | .loadVapour => true
  | .loadLocal => true
  | .loadHolder => true
  | .loadLift => true
  | .holderService => true
  | .loadDistrict => true
  | .loadProfile => true
  | .stepNow => true
  | .districtMode => true
  | .fog => true
  | .loadMeter => true
  | .setClock => true
  | .collectDay => true
  | .read => true
  | .ackAlarm => true
  | .reset => true
  | .resetTimerExpiry => true
  | .octetArrives _ _ _ => true

end Sys2Proof
end

