-- ==== Sys2Proof/Tests/Slice0.lean ====
section
/-! SUPPORT. The model's own tests: ill-formed commands, values worked out in the spec, one step of each command, and
states that meet the hypotheses of the statements. -/

set_option Elab.async false

namespace Sys2Proof.Tests

open Sys2Proof Sys2Proof.Machine Sys2Proof.Claims

/-! ### Ill-formed commands -/

theorem test_wf_sample_refuses_office_port : Instr.wf (.sample .o) = false := by decide
theorem test_wf_reply_refuses_office_port : Instr.wf (.reply .o) = false := by decide
theorem test_wf_order_send_refuses_addresses :
    [0, 240].map (fun a => Instr.wf (.orderSend a)) = [false, false] := by decide
theorem test_wf_reply_timer_refuses_address_zero : Instr.wf (.replyTimerExpiry 0) = false := by decide
theorem test_wf_waiting_timer_refuses_own_address : Instr.wf (.waitingTimerExpiry 240) = false := by decide
theorem test_wf_aging_timer_refuses_own_address : Instr.wf (.agingTimerExpiry 240) = false := by decide
theorem test_wf_step_timer_refuses_districts :
    [0, 7].map (fun d => Instr.wf (.stepTimerExpiry d)) = [false, false] := by decide
theorem test_wf_fog_timer_refuses_district_seven : Instr.wf (.fogTimerExpiry 7) = false := by decide
theorem test_wf_scan_refuses_each_code :
    [Instr.scanComplete 4096 0 0 0, .scanComplete 0 4096 0 0, .scanComplete 0 0 4096 0, .scanComplete 0 0 0 4096].map
      Instr.wf = [false, false, false, false] := by decide
theorem test_wf_accepts_boundaries :
    [Instr.sample .n, .reply .s, .orderSend 1, .orderSend 239, .stepTimerExpiry 1, .fogTimerExpiry 6,
      .scanComplete 0 4095 0 4095].all Instr.wf = true := by decide

/-! ### Words and the check -/

theorem test_no_word_spells_a_command : decodeTableWord 8 0 = none := rfl

/-- R148: the generator and start value of the check, on the nine digits. -/
theorem test_check_of_digits :
    check ([49, 50, 51, 52, 53, 54, 55, 56, 57].map octet) = 0x29B1#16 := by decide +kernel
theorem test_check_bit_by_bit : checkOf ([49, 50, 51, 52, 53, 54, 55, 56, 57].map octet) = 10673 := by decide +kernel

/-! ### Small states -/

/-- Octets from numbers. -/
def bytes (l : List Nat) : List Byte := l.map octet

/-- Two and four octets of a number. -/
def two (n : Nat) : List Nat := [n / 256, n % 256]
def four (n : Nat) : List Nat := [n / 16777216 % 256, n / 65536 % 256, n / 256 % 256, n % 256]

/-- The state after a command. -/
def after (c : Instr) (s : State) : State :=
  match exec c s with
  | .next t => t
  | _ => s

/-- A telegram standing in reception, in a general buffer charged to its port. -/
def standing (p : Port) (octets : List Byte) (s : State) : State :=
  { s with line := { s.line with received := [⟨p, ⟨.general, some p⟩, octets⟩] } }

/-- A request standing in reception. -/
def asked (code : Nat) (f : List Byte) (s : State) : State := standing .o (frame 240 0 4 (octet code :: f)) s

/-- The result octets that a request command answers to several field lists. -/
def results (c : Instr) (code : Nat) (s : State) (fs : List (List Nat)) : List (Option Nat) :=
  fs.map (fun f => ((after c (asked code (bytes f) s)).port .o).routine.getLast?.map (fun t => octetAt t.octets 5))

/-- A state after an accepted request. -/
def granted (c : Instr) (code : Nat) (f : List Nat) (s : State) : State := after c (asked code (bytes f) s)

/-- A port with an IDLE receiver and transmitter. -/
def idlePort : PortState :=
  { PortState.reset 5 with receiver := .idle, frameEnd := .stopped, transmitter := .idle, separation := .stopped }

/-- The unit at rest. -/
def idle : State := { State.reset with
  line := { Line.reset with portO := idlePort, portN := idlePort, portS := idlePort }, backlog := [] }

def levelPoint (station channel : Nat) (value : Option Int) : Point :=
  ⟨station, channel, .level, 0, 27000, 0, 65535, .pass, none, value, .good, none⟩

def marks : Holder where
  valveStation := 17
  gaugePoint := 20
  pressurePoint := none
  temperaturePoint := none
  baseVolume := 500000
  stageCount := 3
  topRise := 27000
  landedMark := 500
  lowMark := 2500
  highMark := 24000
  topMark := 26000
  hysteresis := 200
  permitted := #v[true, true, false, true, false, false]
  inReckoning := true
  lifts := #v[some ⟨0, 120000, 1050⟩, some ⟨9000, 260000, 1380⟩, some ⟨18500, 400000, 1650⟩, none]
  rise := none
  stage := none
  actualVolume := none
  stock := none
  pressure := some 1500
  quality := .stale
  condition := .normal
  blind := false
  overTop := false

def streets : District where
  governor := 44
  minimum := 1000
  maximum := 2400
  drop := 150
  stepPeriod := 60
  slew := 100
  deadband := 20
  outletMeter := some 3
  kneeRate := 4000
  loadFactor := 120
  raiseCap := 400
  tellTalePoint := some 24
  tellTaleMinimum := 900
  gain := 50
  decay := 10
  correctionCap := 300
  mode := .manual
  activeProfile := [⟨300, 1300⟩, ⟨450, 1800⟩, ⟨1320, 1100⟩]
  nextProfile := []
  nextPending := false
  generation := 0
  active := none
  lastSent := none
  lastTarget := none
  correction := 0
  fogRaise := 0
  fogTimer := .running 30
  supplyLimit := 1350
  supplied := true
  setFailed := false
  reportedSetpoint := none
  releasedMark := none
  stepTimer := .running 60

def outletMeter : Meter :=
  ⟨.outlet 2, 30, some 31, none, 1500, none, 100, 500, 65424, true, 0, 0, 0, HourFlags.clear⟩

def openOrder (sends : Nat) : Order := ⟨.office, 17, orderBody 1 4, sends, 0⟩

def station (a : Nat) (kind : StationKind) (linked : Nat) (slot : Slot) (list : List Order) : Station :=
  ⟨a, kind, linked, 60, 2000, some .n, .live, none, 0, .running 60, slot, list⟩

/-- A yard with a holder, a district, a meter, two stations, a stranger and a running clock. -/
def yard : State :=
  let s := { idle with
    directory := [station 17 .holder 3 .empty [], station 44 .governor 2 .empty []]
    strangers := [⟨90, .s, 7, none, .running 600⟩]
    outletSets := idle.outletSets.setIfInBounds 2 #v[false, true, false, false, false, false]
    clock := { Clock.reset with valid := true, timeOfDay := 22320, dayCount := 1205 } }
  (((((s.putPoint 20 (some (levelPoint 30 0 (some 20000)))).putPoint 24 (some (levelPoint 31 0 (some 860)))).putHolder 3
    marks).putRouting 3 ⟨Vector.replicate 7 .closed, DistrictSet.empty, [], none⟩).putDistrict 2 streets).putMeter 3
    outletMeter

/-- A day book whose hour 0 is open. -/
def book : DayBook :=
  ⟨0, 1205, 6, 1000, (Vector.replicate 24 Hour.fresh).setIfInBounds 0 { Hour.fresh with state := .opened }, none, none, none,
    false⟩

def booked : State := { yard with currentBook := some book }

/-! ### The requests' hypothesis -/

theorem bodyOf_frame (d s k : Nat) (body : List Byte) (h : body.length ≤ 255) : bodyOf (frame d s k body) = body := by
  have hl : bodyLengthOf (frame d s k body) = body.length := by
    simp only [bodyLengthOf, octetAt, frame, List.cons_append, List.getD_cons_succ, List.getD_cons_zero, octet,
      BitVec.toNat_ofNat]
    omega
  simp only [bodyOf, hl]
  simp [frame]

/-- Every request statement's hypothesis is met by a state in which the request stands first in reception. -/
theorem test_requested (code : Nat) (f : List Byte) (s : State) (hs : s.unit = .ready) (hf : f.length ≤ 57) :
    Requested code f ⟨.o, ⟨.general, some .o⟩, frame 240 0 4 (octet code :: f)⟩ (asked code f s)
      { s with line := { s.line with received := [] } } where
  ready := hs
  taken := rfl
  kind := by simp [kindOf, octetAt, frame, octet]
  destination := by simp [destinationOf, octetAt, frame, octet]
  body := bodyOf_frame _ _ _ _ (by simp only [List.length_cons]; omega)

/-! ### Values worked out in the spec -/

/-- Chapter 1, conversion and clamping. -/
theorem test_example_conversion :
    (levelPoint 30 0 none).take ⟨0, 0, 51553⟩ none = { levelPoint 30 0 (some 21240) with lastRaw := some 51553 } ∧
    (let p := { levelPoint 30 1 none with lo := -500, hi := 4500, rawMin := 2000, rawMax := 63000 }
     p.take ⟨1, 0, 1200⟩ none = { p with lastRaw := some 1200, value := some (-347), quality := .suspect }) := by
  decide +kernel

/-- Chapter 1, rewriting a full sample: the points' forward modes by channel. -/
def rewritten : Rewrite :=
  let modes := [(0, ForwardMode.annotate), (1, .pass), (2, .annotate), (3, .suppress), (4, .annotate), (6, .suppress),
    (7, .annotate), (8, .suppress), (9, .annotate), (10, .pass), (11, .pass)]
  let s := modes.foldl (fun s m => s.putPoint m.1 (some { levelPoint 31 m.1 (some 21240) with forward := m.2 })) idle
  rewrite 31 (bytes (12 :: (List.range 12).flatMap (fun c => [c, 0, 201, 97]))) s

theorem test_example_rewriting :
    rewritten.kept.map (·.channel) = [0, 1, 2, 4, 5, 7, 9, 10, 11] ∧
    rewritten.annotated.map (fun a => octetAt a 0) = [16, 20, 25] ∧ rewritten.length = 55 ∧
    rewritten.body.length = 55 ∧ octetAt rewritten.body 0 = 12 := by decide +kernel

/-- The yard's barometer point at 100,800 Pa, and two entries of the Vapour Table. -/
def corrected : State :=
  { idle.putPoint 25 (some { levelPoint 31 5 (some 100800) with hi := 120000 }) with
    settings := { Settings.default with barometerPoint := some 25 }
    vapour := (idle.vapour.setIfInBounds 10 (some 1228)).setIfInBounds 12 (some 1402) }

/-- Chapter 2, the stock of a three-stage holder. -/
theorem test_example_stock :
    actualVolume marks 21240 = 46960000 ∧ stageOf marks.liftList 21240 = 3 ∧
    standardCorrection 46960000 1650 1200 corrected = (47324327, false) := by decide +kernel

/-- Chapter 6, one increment. -/
theorem test_example_increment :
    countDelta 65500 65424 = 76 ∧ countDelta 40 65500 = 76 ∧
    standardCorrection 7600 1500 1000 corrected = (7715, false) ∧ 7715 * 18850 = 145427750 := by decide +kernel

/-- District 2 before its step at 06:12:00. -/
def stepping : State :=
  let d := { streets with
    mode := .auto, active := some 1450, lastSent := some 1450, correction := 40, supplyLimit := 1500 }
  (yard.putDistrict 2 d).putMeter 3 { outletMeter with rate := 5400 }

/-- Chapter 5, one step of district 2. -/
theorem test_example_step :
    ((stepComputation 2 stepping).district 2).map (fun r => (r.correction, r.lastTarget, r.active))
      = some (60, some 1500, some 1500) ∧
    profilePressure streets.activeProfile 372 = 1540 ∧
    ((stepComputation 2 stepping).station 44).map (fun e => e.slot)
      = some (.bufferWait ⟨.scheduler 2, 44, orderBody 3 1500, 0, 0⟩) := by decide +kernel

/-- R87: before the first breakpoint, at one's own minute, and after the last. -/
theorem test_profile_wraps :
    [0, 299, 300, 450, 1320, 1439].map (profilePressure [⟨300, 1300⟩, ⟨450, 1800⟩, ⟨1320, 1100⟩])
      = [1157, 1300, 1300, 1800, 1100, 1157] ∧ profilePressure [⟨300, 1300⟩] 0 = 1300 := by decide +kernel

/-- Chapter 9, ratio service: the fifth and eighth choices. -/
theorem test_example_ratio :
    let t := fun n => (⟨⟨.general, none⟩, bytes [n], .plain⟩ : Telegram)
    ((idlePort.choose .four) = idlePort) ∧
    (let q := { idlePort with urgent := [t 5, t 6], routine := [t 11, t 12], runCount := 4 }
     (q.choose .four).transmitter = .sending (t 11) ∧ (q.choose .four).runCount = 0 ∧
     (q.choose .strict).transmitter = .sending (t 5) ∧ (q.choose .strict).runCount = 4) ∧
    (let q := { idlePort with routine := [t 12], runCount := 2 }
     (q.choose .four).transmitter = .sending (t 12) ∧ (q.choose .four).runCount = 0) := by decide +kernel

/-! ### The queue and restarts -/

theorem test_step_takes_front : step { idle with pending := [.powerOn, .reset] } = exec .powerOn { idle with pending := [.reset] } :=
  rfl
theorem test_step_idles : State.reset.pending = [] ∧ step State.reset = .next State.reset := ⟨rfl, rfl⟩

/-- The unit in a restart, with a WARM restart's kept records. -/
def restarting (cause : RestartCause) (s : State) : State := beginRestart cause s

theorem test_restarting_takes_nothing :
    (restarting .warm yard).unit = .restarting .warm ∧
    exec (.separationExpiry .o) (restarting .warm yard) = .next (restarting .warm yard) := ⟨rfl, rfl⟩

theorem test_other_state_is_kept : exec .reportSend idle = .next idle ∧ isRestarting idle = false := ⟨rfl, rfl⟩

theorem test_power_on : (after .powerOn yard).unit = .restarting .power ∧ (after .powerOn yard).directory = [] := by
  decide +kernel

theorem test_reset_timer :
    (after .resetTimerExpiry { yard with unit := .resetPending .cold }).unit = .restarting .cold ∧
    (let t := after .resetTimerExpiry { yard with unit := .resetPending .warm }
     t.unit = .restarting .warm ∧ (t.holder 3).map (·.blind) = some true ∧ t.strangers = []) := by decide +kernel

theorem test_restart_complete :
    (restarting .cold yard).unit = .restarting .cold ∧ (∀ h, (restarting .cold yard).holder h = none) ∧
    after .restartComplete (restarting .power idle) = State.reset ∧
    (after .restartComplete (restarting .warm yard)).backlog = [⟨.full (.start .warm), none⟩] := by
  refine ⟨rfl, ?_, by decide +kernel, by decide +kernel⟩
  intro h
  rcases h with _ | _ | _ | _ | _ | _ | _ | _ | _ | _ <;> rfl

/-- R42, R78, R120, R166: timers, the owed alarm behind START, and the close that is handed over again. -/
theorem test_restart_resumes :
    let s := { yard.putRouting 3 ⟨Vector.replicate 7 .opened, DistrictSet.empty, [⟨4, false, .landed⟩], none⟩ with
      alarms := [⟨⟨.holderLanded, 3, none⟩, .active, 1, none, none, false, true⟩] }
    let t := after .restartComplete (restarting .warm s)
    (restarting .warm s).unit = .restarting .warm ∧
    (t.station 17).map (fun e => (e.waitingTimer, e.slot))
      = some (.running 60, .bufferWait ⟨.interlock, 17, orderBody 2 4, 0, 0⟩) ∧
    (t.routing 3).map (·.inHand) = some (some 0) ∧ (t.district 2).map (·.stepTimer) = some (.running 60) ∧
    t.backlog.map (·.form) = [.full (.start .warm), .reference (.alarm ⟨.holderLanded, 3, none⟩)] := by decide +kernel

/-! ### Line ports -/

/-- A port's receiver or transmitter in a given state. -/
def receiving (p : Port) (x : Receiver) (s : State) : State :=
  s.modPort p (fun q => { q with receiver := x, frameEnd := .running 4 })
def sending (p : Port) (t : Telegram) (s : State) : State := s.modPort p (fun q => { q with transmitter := .sending t })

theorem test_reception_start :
    (idle.port .n).receiver = .idle ∧ isRestarting idle = false ∧
    (after (.receptionStart .n (octet 7) true) idle).line.freeGeneral = 87 ∧
    ((after (.receptionStart .n (octet 7) true) idle).port .n).receiver
      = .receiving ⟨.general, some .n⟩ [octet 7] 1 true := by decide +kernel

/-- R140, R158: no free buffer, and the taking that reaches the hold mark. -/
theorem test_reception_start_at_marks :
    ((after (.receptionStart .n (octet 7) false) { idle with line := { idle.line with freeGeneral := 0 } }).port .n).receiver
      = .discarding true ∧
    (after (.receptionStart .n (octet 7) false) { idle with line := { idle.line with freeGeneral := 17 } }).line.holding
      = .holding := by decide +kernel

theorem test_octet_arrives :
    [63, 64].map (fun n => match ((after (.octetArrives .s (octet 9) false)
        (receiving .s (.receiving ⟨.general, some .s⟩ (List.replicate n 0) n false) idle)).port .s).receiver with
      | .receiving _ octets count _ => (octets.length, count)
      | _ => (0, 0)) = [(64, 64), (64, 65)] ∧
    ((after (.octetArrives .s (octet 9) true) (receiving .s (.discarding true) idle)).port .s).receiver
      = .discarding true := by decide +kernel

/-- The last fault and the good figure after the end of a frame. -/
def endsAs (p : Port) (octets : List Byte) (mark : Bool) : LineFault × Nat :=
  let t := after (.frameEnd p) (receiving p (.receiving ⟨.general, some p⟩ octets octets.length mark) idle)
  ((t.port p).lastFault, (t.port p).good)

/-- R141: each check of a held frame, and a good one. -/
theorem test_frame_end :
    endsAs .n (bytes [0, 31, 1, 0, 0]) false = (.badLength, 0) ∧
    endsAs .n (frame 0 31 1 [] ++ [0]) false = (.badLength, 0) ∧
    endsAs .n (frame 0 31 1 []) true = (.badCheck, 0) ∧
    endsAs .n (bytes [0, 31, 1, 0, 0, 0]) false = (.badCheck, 0) ∧
    endsAs .n (frame 0 31 2 []) false = (.badKind, 0) ∧
    endsAs .n (frame 241 31 1 []) false = (.badAddress, 0) ∧
    endsAs .n (frame 240 239 3 [5]) false = (.none, 1) ∧
    badLength (bytes ([0, 31, 1, 58] ++ List.replicate 60 0)) 64 = false ∧
    badLength (bytes ([0, 31, 1, 59] ++ List.replicate 60 0)) 65 = true ∧
    endsAs .o (frame 255 0 4 [1]) false = (.none, 1) := by decide +kernel

theorem test_frame_end_of_dropped_frame :
    ((after (.frameEnd .n) (receiving .n (.discarding true) idle)).port .n).dropped = 1 ∧
    ((after (.frameEnd .n) (receiving .n (.discarding false) idle)).port .n).dropped = 0 := by decide +kernel

/-- A telegram of the processor in an egress queue. -/
def waitingTelegram (tag : Tag) : Telegram := ⟨⟨.general, none⟩, frame 17 240 2 (orderBody 1 4), tag⟩

theorem test_transmit_start :
    let s := enqueue .o true (waitingTelegram .plain) idle
    (s.port .o).transmitter = .idle ∧ ¬ ((s.port .o).urgent = [] ∧ (s.port .o).routine = []) ∧
    ((after (.transmitStart .o) s).port .o).transmitter = .sending (waitingTelegram .plain) := by decide +kernel

theorem test_separation_expiry :
    let s := idle.modPort .o (fun q => { q with transmitter := .separating, separation := .running 5 })
    (s.port .o).transmitter = .separating ∧ ((after (.separationExpiry .o) s).port .o).transmitter = .idle := by
  decide +kernel

/-- R144: an ordinary telegram, the last copy of a send, and the ANSWER of an accepted RESET. -/
theorem test_transmission_complete :
    (after (.transmissionComplete .n) (sending .n (waitingTelegram .plain) idle)).line.freeGeneral = 89 ∧
    (let s := { yard with directory := [station 17 .holder 3 (.onLine (openOrder 1) 5 1) []] }
     ((after (.transmissionComplete .n) (sending .n (waitingTelegram (.orderCopy 17 5)) s)).station 17).map (·.slot)
       = some (.awaitingReply (openOrder 1) 2000)) ∧
    (after (.transmissionComplete .o) (sending .o (waitingTelegram .resetAnswer) { yard with unit := .resetPending .warm })).unit
      = .restarting .warm := by decide +kernel

/-- R158, R161: both marks, and the repetition. -/
theorem test_holding_marks :
    let made := fun (h : Holding) n => { idle with line := { idle.line with freeGeneral := n, holding := h, repeatTimer := .running 5 } }
    [16, 17].map (fun n => (holdingTest (made .notHolding n)).line.holding) = [.holding, .notHolding] ∧
    [39, 42].map (fun n => (holdingTest (made .holding n)).line.holding) = [.holding, .notHolding] ∧
    (after .repeatTimerExpiry (made .holding 20)).line.freeGeneral = 18 := by decide +kernel

/-- R153, R154: a freed general buffer met by the send at the head; a freed reserve one passed over by a ROUTINE report and
met by the send behind it; a copy not sent gives its buffer to the next claim. -/
theorem test_offers :
    let s := { yard with
      directory := [station 17 .holder 3 (.bufferWait (openOrder 0)) []], claims := [.send 17, .backlog]
      backlog := [⟨.full (.start .power), none⟩], line := { yard.line with freeGeneral := 0, freeReserve := 0, holding := .holding } }
    let off := { s with settings := { s.settings with enables := { s.settings.enables with officeToN := false } } }
    let slotOf := fun (t : State) => (t.station 17).map (·.slot)
    (freeBuffer ⟨.general, none⟩ s).claims = [.backlog] ∧
    (let t := freeBuffer ⟨.reserve, none⟩ { s with claims := [.backlog, .send 17] }
     t.claims = [.backlog] ∧ slotOf t = some (.onLine (openOrder 1) 0 1)) ∧
    (let t := freeBuffer ⟨.general, none⟩ off
     t.claims = [] ∧ slotOf t = some (.awaitingReply (openOrder 1) 2000) ∧ t.backlog = []) ∧
    (offerClaim (.send 17) s).isNone = true ∧ (offerClaim .backlog s).isNone = true := by decide +kernel

/-- R153, R154: a met send of two copies that are both not sent gives its buffers back one at a time: the first meets the
report behind a two-copy send, which the two together would have met. -/
theorem test_buffers_given_back_singly :
    let heard := fun (a : Nat) => { station a .general 0 (.bufferWait ⟨.office, a, orderBody 5 0, 0, a⟩) [] with branch := none }
    let s := { yard with
      directory := [heard 17, heard 44], claims := [.send 17, .send 44, .backlog], backlog := [⟨.full (.start .power), none⟩]
      settings := { yard.settings with enables := { yard.settings.enables with officeToN := false, officeToS := false } }
      line := { yard.line with freeGeneral := 1, freeReserve := 0, holding := .holding } }
    let t := freeBuffer ⟨.general, none⟩ s
    t.claims = [.send 44] ∧ t.backlog = [] ∧ t.line.freeGeneral = 1 := by decide +kernel

/-! ### Relay Unit -/

/-- A SAMPLE of one GOOD entry of channel 0. -/
def oneSample (destination source : Nat) : List Byte := frame destination source 1 (bytes [1, 0, 0, 201, 97])

theorem test_sample :
    let s := standing .n (oneSample 0 30) yard
    (takeReceived .n s).map (fun x => kindOf x.1.octets) = some 1 ∧
    ((after (.sample .n) s).point 20).map (·.value) = some (some 21240) ∧
    ((after (.sample .n) s).port .o).routine.length = 1 ∧
    (after (.sample .n) s).strangers.map (·.address) = [90, 30] := by decide +kernel

/-- R3, R9, R11: a body that is not well formed goes as it arrived; a point's entry is annotated, and a suppressed one
leaves nothing to send. -/
theorem test_sample_rewritten :
    let queued := fun body mode => (((after (.sample .n) (standing .n (frame 0 30 1 (bytes body))
      (yard.putPoint 20 (some { levelPoint 30 0 none with forward := mode })))).port .o).routine.map
        (fun t => (bodyOf t.octets).map (·.toNat)))
    queued [2, 0, 0, 201, 97] .suppress = [[2, 0, 0, 201, 97]] ∧ queued [1, 0, 0, 201, 97] .suppress = [] ∧
    queued [1, 0, 0, 201, 97] .annotate = [[2, 0, 0, 201, 97, 16, 0, 0, 0, 82, 248]] ∧
    queued [1, 5, 0, 201, 97] .suppress = [[1, 5, 0, 201, 97]] := by decide +kernel

/-- A REPLY to OPEN 4 with seven valve states. -/
def openReply (destination : Nat) : List Byte := frame destination 17 3 (bytes [1, 0, 4, 0, 0, 0, 0, 0, 1, 0, 0])

/-- R70, R73: a REPLY that completes an office order, and one that matches none. -/
theorem test_reply :
    let s := { yard with directory := [station 17 .holder 3 (.awaitingReply (openOrder 1) 2000) []] }
    let t := after (.reply .n) (standing .n (openReply 0) s)
    (takeReceived .n (standing .n (openReply 0) s)).map (fun x => kindOf x.1.octets) = some 3 ∧
    (t.station 17).map (·.slot) = some .empty ∧ (t.port .o).urgent.length = 1 ∧
    (t.routing 3).map (·.outletSet.toList) = some [false, false, false, true, false, false] ∧
    ((after (.reply .n) (standing .n (openReply 0) yard)).port .o).urgent.length = 1 := by decide +kernel

/-- A governor station that owes the answer to an automatic SET of 1,200 Pa. -/
def setOutstanding (r : District) : State :=
  { yard.putDistrict 2 r with directory := [station 44 .governor 2
      (.awaitingReply ⟨.scheduler 2, 44, orderBody 3 1200, 1, 0⟩ 2000) []] }

/-- The state after its answer with a result, a setpoint of 1,204 Pa and a released octet. -/
def setAnswered (result : Nat) (r : District) : State :=
  after (.reply .n) (standing .n (frame 240 44 3 (bytes [3, 4, 176, result, 4, 180, 1])) (setOutstanding r))

/-- Last-sent setpoint, set-failed flag, active setpoint and setpoint of the governor view. -/
def setpointsOf (t : State) : Option (Option Nat × Bool × Option Nat × Option Nat) :=
  (t.district 2).map (fun r => (r.lastSent, r.setFailed, r.active, r.reportedSetpoint))

/-- R72, R83: a SET of the scheduler done, refused, and done at a station that is no longer the governor. -/
theorem test_reply_to_set :
    setpointsOf (setAnswered 0 streets) = some (some 1200, false, some 1200, some 1204) ∧
    setpointsOf (setAnswered 2 streets) = some (none, true, none, some 1204) ∧
    setpointsOf (setAnswered 0 { streets with governor := 45 }) = some (none, false, none, none) := by decide +kernel

/-- R72, R83: the SETPOINT report owed for the first, the ORDER-FAILED one for the second, nothing for the third. -/
theorem test_reply_to_set_owes :
    [setAnswered 0 streets, setAnswered 2 streets, setAnswered 0 { streets with governor := 45 }].map (fun t =>
      (t.backlog.length, t.alarms.length)) = [(1, 0), (1, 1), (0, 0)] := by decide +kernel

/-- R46: CLOSE-FAILED cleared for a valve that reads CLOSED, and nothing taken from a body of 10 octets. -/
theorem test_reply_states :
    let s := { yard with alarms := [⟨⟨.closeFailed, 3, some 2⟩, .active, 1, none, none, true, false⟩] }
    let put := fun body => after (.reply .n) (standing .n (frame 0 17 3 (bytes body)) s)
    (put [5, 0, 0, 0, 1, 2, 0, 3, 4, 0, 1]).alarms.map (·.key) = [⟨.districtUnsupplied, 2, none⟩] ∧
    ((put [5, 0, 0, 0, 1, 2, 0, 3, 4, 0, 1]).routing 3).map (·.confirmed.toList)
      = some [.opened, .moving, .closed, .fault, .unknown, .closed, .opened] ∧
    (put [5, 0, 0, 0, 1, 2, 0, 3, 4, 0]).routing 3 = yard.routing 3 := by decide +kernel

/-- A COMMAND of the office. -/
def command (destination code operand : Nat) : List Byte := frame destination 0 2 (orderBody code operand)

/-- R135: discarded, for both branches, refused, placed, busy, a stranger's, an unknown address. -/
theorem test_office_command :
    let put := fun octets s => after .officeCommand (standing .o octets s)
    let lengths := fun (t : State) => ((t.port .n).urgent.length, (t.port .s).urgent.length, t.backlog.length)
    let full := { yard with directory := [station 17 .holder 3 (.bufferWait (openOrder 0)) (List.replicate 4 (openOrder 0))] }
    (takeReceived .o (standing .o (command 17 5 0) yard)).map (fun x => kindOf x.1.octets) = some 2 ∧
    lengths (put (command 240 5 0) yard) = (0, 0, 0) ∧ lengths (put (command 255 5 0) yard) = (1, 1, 0) ∧
    lengths (put (command 17 1 3) yard) = (0, 0, 1) ∧
    ((put (command 17 1 4) yard).station 17).map (·.slot) = some (.bufferWait (openOrder 0)) ∧
    lengths (put (command 17 5 0) full) = (0, 0, 1) ∧ lengths (put (command 90 5 0) yard) = (0, 1, 0) ∧
    lengths (put (command 91 5 0) yard) = (1, 1, 0) := by decide +kernel

/-- R63: an order taken behind one that is outstanding waits at the tail, with no send made. -/
theorem test_office_order_waits :
    let s := { yard with directory := [station 17 .holder 3 (.onLine (openOrder 1) 0 1) [openOrder 0]] }
    ((after .officeCommand (standing .o (command 17 5 7) s)).station 17).map (fun e => e.pendingList.map (·.body))
      = some [orderBody 1 4, orderBody 5 7] := by decide +kernel

/-- R48, R82: each refusal and its boundary. -/
theorem test_office_orders_checked :
    let valve := fun (r : Holder) v => commandRefusal 17 (orderBody 1 v) (yard.putHolder 3 r)
    let street := fun (r : District) c v => commandRefusal 44 (orderBody c v) (yard.putDistrict 2 r)
    [valve { marks with inReckoning := false } 0, valve { marks with blind := true } 0,
      valve { marks with condition := .top } 0, valve marks 0, valve marks 3, valve marks 4,
      valve { marks with condition := .low } 4, valve { marks with inReckoning := false } 6,
      valve { marks with inReckoning := false } 7,
      street streets 3 2400, street streets 3 2401, street { streets with mode := .auto } 3 1000,
      street { streets with mode := .auto } 4 0, commandRefusal 44 (bytes [3, 255]) yard]
      = [some .notReckoned, some .blind, some .atTop, none, some .notPermitted, none, some .atLow, some .notReckoned, none,
        none, some .outOfRange, some .notAllowed, some .notAllowed, none] := by decide +kernel

/-- R122, R128: a station that moved; a full stranger list. -/
theorem test_hearing :
    ((hear 17 .s yard).station 17).map (fun e => (e.branch, e.migrations)) = some (some .s, 1) ∧
    (let eight := { idle with strangers := (List.range 8).map (fun i => ⟨i + 1, .n, 1, none, .running 600⟩) }
     (hear 9 .n eight).strangers.map (·.address) = [2, 3, 4, 5, 6, 7, 8, 9] ∧
     (hear 1 .n eight).strangers.map (·.address) = [2, 3, 4, 5, 6, 7, 8, 1]) := by decide +kernel

/-- R122, R123: STATION-MOVED at a move, and STATION-SILENT cleared for a SILENT station. -/
theorem test_hearing_alarms :
    let silent : Alarm := ⟨⟨.stationSilent, 17, none⟩, .active, 1, none, none, true, false⟩
    let s := { yard with
      directory := [{ station 17 .holder 3 .empty [] with liveness := .silent, waitingTimer := .stopped }]
      alarms := [silent] }
    (hear 17 .s yard).alarms.map (·.key) = [⟨.stationMoved, 17, none⟩] ∧ (hear 17 .n s).alarms = [] ∧
    ((hear 17 .n s).station 17).map (·.waitingTimer) = some (.running 60) := by decide +kernel

/-- R8: of a silent station's points one that holds a value becomes STALE, one that is NONE stays so, and another
station's stays as it is. -/
theorem test_points_go_stale :
    let s := { yard.putPoint 21 (some { levelPoint 30 1 none with quality := .none }) with
      directory := [station 30 .general 0 .empty []] }
    let t := after (.waitingTimerExpiry 30) s
    [20, 21, 24].map (fun n => (t.point n).map (fun p => (p.quality, p.value)))
      = [some (.stale, some 20000), some (.none, none), some (.good, some 860)] ∧
    (t.holder 3).map (·.blind) = some true := by decide +kernel

theorem test_waiting_timer :
    (yard.station 17).map (·.waitingTimer) = some (.running 60) ∧
    ((after (.waitingTimerExpiry 17) yard).station 17).map (·.liveness) = some .silent := by decide +kernel

theorem test_aging_timer :
    (yard.stranger 90).isSome = true ∧ (after (.agingTimerExpiry 90) yard).strangers = [] := by decide +kernel

/-! ### Converters -/

/-- R4, R6: an entry of a configured key and one of no point. -/
theorem test_entry :
    findPoint 30 0 yard = some 20 ∧ findPoint 30 1 yard = none ∧
    ((takeEntry 30 yard ⟨0, 0, 65535⟩).point 20).map (·.value) = some (some 27000) ∧
    ((takeEntry 30 yard ⟨1, 0, 5⟩).point 20).map (·.value) = some (some 20000) := by decide +kernel

/-- R107, R108, R112: a count over the limit, the first count, one that stands still, a lost count, a rate. -/
theorem test_meter_updates :
    let held : Alarm := ⟨⟨.meterJump, 3, none⟩, .active, 1, none, none, true, false⟩
    let put := fun (m : Meter) kind value quality entry =>
      handUpdate ⟨if kind = .count then 30 else 31, kind, value, quality, entry⟩ { booked.putMeter 3 m with alarms := [held] }
    let record := fun (t : State) => t.currentBook.map (fun b => (b.hours[0].districts[1].volume,
      b.hours[0].districts[1].flags.value, b.hours[0].districts[1].peakRate, t.alarms.length))
    let lastOf := fun (t : State) => (t.meter 3).map (fun m => (m.lastCount, m.lastCountValid))
    record (put outletMeter .count (some 389) .good true) = some (0, 1, 0, 1) ∧
    record (put { outletMeter with lastCountValid := false } .count (some 389) .good true) = some (0, 0, 0, 1) ∧
    record (put outletMeter .count (some 65424) .good true) = some (0, 18, 0, 0) ∧
    lastOf (put outletMeter .count (some 388) .good true) = some (388, true) ∧
    lastOf (put outletMeter .count (some 388) .failed true) = some (65424, true) ∧
    lastOf (put outletMeter .count (some 7) .stale false) = some (65424, false) ∧
    record (put outletMeter .period (some 7) .good true) = some (0, 0, 5143, 1) ∧
    record (put outletMeter .period (some 0) .good true) = some (0, 0, 0, 1) := by decide +kernel

/-- R89, R114: a GOOD tell-tale lowers the minimum of the open hour; a SUSPECT one and a higher one do not. -/
theorem test_tell_tale :
    let least := fun (value : Int) quality (s : State) =>
      (handUpdate ⟨24, .level, some value, quality, true⟩ s).currentBook.map (fun b => b.hours[0].districts[1].minTellTale)
    least 860 .good booked = some (some 860) ∧ least 860 .suspect booked = some none ∧
    least 900 .good (handUpdate ⟨24, .level, some 860, .good, true⟩ booked) = some (some 860) := by decide +kernel

/-- A converter whose timers run. -/
def converting : State :=
  { idle with localConverter :=
      ⟨true, 10, 60, .settling, .running 2, .running 60, true⟩ }

theorem test_settle_timer : (after .settleTimerExpiry converting).localConverter.running = .ready := by decide +kernel

theorem test_scan_timer :
    (after .scanTimerExpiry { converting with localConverter := { converting.localConverter with scanning := false } }).localConverter.scanning
      = true := by decide +kernel

/-- R11, R14, R15: the largest code of the resolution is taken, and one above it is not; a local sample whose points are
all SUPPRESS is not queued. -/
theorem test_scan_complete :
    let s := [0, 1, 2, 3].foldl (fun s c =>
      s.putPoint c (some { levelPoint 240 c none with forward := .suppress })) converting
    let t := after (.scanComplete 1023 0 0 1) s
    t.localConverter.scanning = false ∧ (t.port .o).routine = [] ∧
    [0, 1, 3].map (fun c => (t.point c).map (fun p => (p.lastRaw, p.quality)))
      = [some (some 65472, .suspect), some (some 0, .suspect), some (some 64, .suspect)] ∧
    (after (.scanComplete 1024 0 0 0) s).localConverter.scanning = true := by decide +kernel

/-! ### Order Unit and Report Backlog -/

/-- R66, R67: a send on a known branch, with a copy disabled, and without a free buffer. -/
theorem test_order_send :
    let s := { yard with directory := [station 17 .holder 3 .empty [openOrder 0]] }
    let off := { s with settings := { s.settings with enables := { s.settings.enables with officeToN := false } } }
    let dry := { s with line := { s.line with freeGeneral := 0, freeReserve := 0 } }
    let one := { s with line := { s.line with freeGeneral := 0, freeReserve := 1 } }
    let slotOf := fun (t : State) => (t.station 17).map (·.slot)
    slotOf (after (.orderSend 17) s) = some (.onLine (openOrder 1) 0 1) ∧
    slotOf (after (.orderSend 17) off) = some (.awaitingReply (openOrder 1) 2000) ∧
    (after (.orderSend 17) dry).claims = [.send 17] ∧ slotOf (after (.orderSend 17) one) = some (.onLine (openOrder 1) 0 1) := by
  decide +kernel

/-- R68, R69: the fourth send is repeated, the fifth is not. -/
theorem test_reply_timer :
    let made := fun n => after (.replyTimerExpiry 17)
      { yard with directory := [station 17 .holder 3 (.awaitingReply (openOrder n) 2000) []] }
    ((made 4).station 17).map (·.slot) = some (.bufferWait (openOrder 4)) ∧
    ((made 5).station 17).map (·.slot) = some .empty ∧ (made 5).backlog.length = 1 := by decide +kernel

/-- Holder 3's Routing Record with its outlets open. -/
def routed (sequence : List Closure) (inHand : Option Nat) : Routing :=
  ⟨#v[.closed, .opened, .opened, .closed, .closed, .closed, .closed], #v[true, true, false, false, false, false],
    sequence, inHand⟩

/-- R50 to R52, R55: blindness withdraws an outlet's OPEN from the slot and another from the list, and closes no outlet. -/
theorem test_blindness_withdraws :
    let t := interlockCause 3 .blind { yard with
      directory := [station 17 .holder 3 (.onLine (openOrder 1) 0 1) [⟨.office, 17, orderBody 5 0, 0, 1⟩, openOrder 0]] }
    t.backlog.map (·.form) = [.full (.superseded 17 (some 1) (some 4) .blind), .full (.superseded 17 (some 1) (some 4) .blind)] ∧
    (t.station 17).map (fun e => (e.slot, e.pendingList)) = some (.bufferWait ⟨.office, 17, orderBody 5 0, 0, 1⟩, []) ∧
    (t.routing 3).map (·.sequence) = some [] := by decide +kernel

/-- R51 to R56: a landed holder: the abandoned OPEN's outlet is forced, the open outlets follow in order, and the first is
handed over ahead of the office order that waits. -/
theorem test_landing_closes :
    let ask : Order := ⟨.office, 17, orderBody 5 0, 0, 1⟩
    let t := interlockCause 3 .landed { yard.putRouting 3 (routed [] none) with
      directory := [station 17 .holder 3 (.onLine (openOrder 1) 0 1) [ask]] }
    (t.routing 3).map (fun q => (q.sequence, q.inHand))
      = some ([⟨1, false, .landed⟩, ⟨2, false, .landed⟩, ⟨4, true, .landed⟩], some 0) ∧
    (t.station 17).map (fun e => (e.slot, e.pendingList))
      = some (.bufferWait ⟨.interlock, 17, orderBody 2 1, 0, 0⟩, [ask]) := by decide +kernel

/-- Holder 3 with the close of valve 2 in hand, as order 9. -/
def closing : State := yard.putRouting 3 (routed [⟨2, false, .landed⟩, ⟨5, true, .landed⟩] (some 9))

/-- The automatic CLOSE of valve 2 of a serial. -/
def closeOf (serial : Nat) : Order := ⟨.interlock, 17, orderBody 2 2, 5, serial⟩

/-- Valves of the sequence and entry in hand; then the valves of the alarms. -/
def sequenceOf (t : State) : Option (List Nat × Option Nat) :=
  (t.routing 3).map (fun q => (q.sequence.map (·.valve), q.inHand))
def failedValves (t : State) : List (Option Nat) := t.alarms.map (·.key.valve)

/-- R56, R57: a failed close and the next handed over; a close that succeeds; the ending of a close that is not in hand; a
hand-over while one is in hand. -/
theorem test_closures :
    [closeEnded 3 (closeOf 9) false true closing, closeEnded 3 (closeOf 9) true true closing,
      closeEnded 3 (closeOf 8) true true closing, handOver 3 closing].map sequenceOf
      = [some ([5], some 0), some ([5], some 0), some ([2, 5], some 9), some ([2, 5], some 9)] := by decide +kernel

/-- R57: a failed close leaves its valve UNKNOWN with CLOSE-FAILED, and its district without supply. -/
theorem test_close_failed :
    failedValves (closeEnded 3 (closeOf 9) false true closing) = [none, some 2] ∧
    failedValves (closeEnded 3 (closeOf 9) true true closing) = [] ∧
    ((closeEnded 3 (closeOf 9) false true closing).routing 3).map (·.confirmed[2]) = some .unknown := by decide +kernel

/-- R56: entries for a station that is not configured fail in order. -/
theorem test_closures_unconfigured :
    let t := handOver 3 { yard.putRouting 3 (routed [⟨3, false, .top⟩, ⟨2, false, .top⟩] none) with directory := [] }
    sequenceOf t = some ([], none) ∧ failedValves t = [none, some 2] := by decide +kernel

/-- R55: the inlet, not CLOSED, added behind the entry in hand. -/
theorem test_closure_added_behind :
    ((interlockCause 3 .top (closing.putRouting 3 ⟨Vector.replicate 7 .opened, DistrictSet.empty, [⟨2, false, .landed⟩], some 9⟩)).routing
      3).map (fun q => q.sequence.map (·.valve)) = some [2, 0] := by decide +kernel

/-- R167: a report in a general buffer, an URGENT one in a reserve buffer (the two HOLD copies that follow take one each),
and one that waits. -/
theorem test_report_send :
    let owing := fun r => oweFull r idle
    let dry := fun r => { owing r with line := { idle.line with freeGeneral := 0 } }
    let urgent := FullReport.refusal 17 (some 1) (some 4) .busy
    (owing urgent).backlog ≠ [] ∧ Claim.backlog ∉ (owing urgent).claims ∧
    (after .reportSend (owing urgent)).backlog = [] ∧
    (after .reportSend (dry urgent)).line.freeReserve = 5 ∧
    (after .reportSend (dry (.start .power))).claims = [.backlog] := by decide +kernel

/-- R167: DAY-CLOSE with one general buffer, first at its first part and then at its second: the part number and count sent,
and what the entry holds. -/
theorem test_report_parts :
    let one := fun s : State => { s with line := { idle.line with freeGeneral := 1 }, claims := [] }
    let first := after .reportSend (one (dayClose booked))
    let second := after .reportSend (one first)
    let sent := fun t : State => (t.port .o).routine.map (fun x => ((bodyOf x.octets).take 3).map (·.toNat))
    let held := fun t : State => t.backlog.map (fun e => e.held.map (fun h => (h.partCount, h.remaining.map (·.length))))
    (sent first, held first, first.claims) = ([[7, 1, 3]], [some (3, [46, 46])], [.backlog]) ∧
    (sent second, held second, second.claims) = ([[7, 2, 3]], [some (3, [46])], [.backlog]) := by decide +kernel

/-- A held record of DISTRICT-UNSUPPLIED of district 2. -/
def unsupplied (state : AlarmState) (acknowledged : Bool) : Alarm :=
  ⟨⟨.districtUnsupplied, 2, none⟩, state, 255, none, none, acknowledged, false⟩

/-- R149, R168: ALARM, REFUSAL and SUPERSEDED content, with fields that are absent. -/
theorem test_report_contents :
    let shown := fun form => (reportOf { idle with alarms := [unsupplied .active false] } form).parts.map (·.map (·.toNat))
    shown (.reference (.alarm ⟨.districtUnsupplied, 2, none⟩))
      = [[10, 2, 255, 0, 255, 255, 255, 255, 255, 255, 255, 255, 255, 0]] ∧
    shown (.full (.refusal 17 (some 1) (some 260) .busy)) = [[17, 1, 1, 4, 6]] ∧
    shown (.full (.superseded 17 none none .dropped)) = [[17, 255, 255, 255, 0, 7]] := by decide +kernel

/-- R163, R164: a count at its limit; a record cleared unacknowledged, acknowledged, and already cleared. -/
theorem test_alarms :
    let with' := fun r => { idle with alarms := [r] }
    let key : AlarmKey := ⟨.districtUnsupplied, 2, none⟩
    (raiseAlarm key (with' (unsupplied .clearedUnacked true))).alarms
      = [{ unsupplied .active false with reportOwed := true }] ∧
    (raiseAlarm key idle).alarms.map (·.count) = [1] ∧ (clearAlarm key idle).alarms = [] ∧
    (clearAlarm key (with' (unsupplied .active false))).alarms.map (·.state) = [.clearedUnacked] ∧
    (clearAlarm key (with' (unsupplied .active true))).alarms = [] ∧
    (clearAlarm key (with' (unsupplied .clearedUnacked false))).alarms = [unsupplied .clearedUnacked false] := by
  decide +kernel

/-- R163, R164, R166: a full list with a record to evict and with none; a removal with its report enabled, and one whose
record an entry refers to. -/
theorem test_full_alarm_list :
    let key : AlarmKey := ⟨.districtUnsupplied, 2, none⟩
    let full := fun state => { idle with
      alarms := (List.range 32).map (fun i => ⟨⟨.stationSilent, i, none⟩, if i = 5 then state else .active, 1, none, none, false, false⟩) }
    let gone := { idle with alarms := [unsupplied .active true], alarmOverflow := true }
    (raiseAlarm key (full .clearedUnacked)).alarms.map (·.key.subject) = (List.range 32).filter (· != 5) ++ [2] ∧
    (raiseAlarm key (full .active)).alarms = (full .active).alarms ∧ (raiseAlarm key (full .active)).alarmOverflow = true ∧
    (clearAlarm key gone).backlog.map (·.form) = [.full (.removedAlarm (unsupplied .active true))] ∧
    (clearAlarm key gone).alarmOverflow = false ∧
    (clearAlarm key { gone with backlog := [⟨.reference (.alarm key), none⟩, ⟨.full (.start .power), none⟩] }).backlog.map (·.form)
      = [.full (.removedAlarm (unsupplied .active true)), .full (.start .power)] := by decide +kernel

/-! ### Scheduler and clock -/

theorem test_step_timer :
    (yard.district 2).map (·.stepTimer) = some (.running 60) ∧
    ((after (.stepTimerExpiry 2) stepping).district 2).map (·.active) = some (some 1500) := by decide +kernel

/-- R91, R93, R65: a limit below the minimum; an active setpoint that is sent, one within the deadband, and one whose
governor is not configured. -/
theorem test_step_short_and_sent :
    let made := fun (r : District) s => stepComputation 2 (s.putDistrict 2 { r with mode := .auto, active := some 1000 })
    let waits := fun (t : State) => (t.station 44).map (fun e => e.slot.order?.map (·.body))
    (made { streets with supplyLimit := 900 } yard).alarms.map (·.key) = [⟨.districtShort, 2, none⟩] ∧
    waits (made { streets with supplyLimit := 900 } yard) = some (some (orderBody 3 900)) ∧
    waits (made { streets with lastSent := some 1080 } yard) = some (some (orderBody 3 1100)) ∧
    waits (made { streets with lastSent := some 1081 } yard) = some none ∧
    waits (made { streets with supplied := false } yard) = some none ∧
    ((made streets { yard with directory := [] }).district 2).map (·.setFailed) = some true := by decide +kernel

/-- The yard's supply recomputed with district 2 in AUTO at 1,300 Pa and a given holder 3. -/
def recomputedWith (r : Holder) : State :=
  recomputeSupply ((yard.putDistrict 2 { streets with mode := .auto, active := some 1300 }).putHolder 3 r)

/-- R95 to R97: the supply as it was, one that falls below the minimum, and one that is lost, in AUTO. -/
theorem test_supply_recomputed :
    [recomputedWith marks, recomputedWith { marks with pressure := some 1100 },
      recomputedWith { marks with inReckoning := false }].map (fun t =>
        ((t.district 2).map (fun r => (r.supplyLimit, r.supplied, r.active)), t.alarms.map (·.key.kind)))
      = [(some (1350, true, some 1300), []), (some (950, true, some 950), [.districtShort]),
        (some (0, false, some 0), [.districtUnsupplied])] := by decide +kernel

theorem test_fog_timer :
    ((after (.fogTimerExpiry 2) (yard.putDistrict 2 { streets with fogRaise := 50 })).district 2).map (·.fogRaise) = some 0 := by
  decide +kernel

/-- R101: an ordinary second, a whole hour, and the end of the last day. -/
theorem test_clock_second :
    let made := fun t d => (after .clockSecond { yard with clock := { yard.clock with timeOfDay := t, dayCount := d } }).clock
    [made 0 5, made 3599 5, made 86399 65535].map (fun c => (c.timeOfDay, c.dayCount, c.hoursDue))
      = [(1, 5, []), (3600, 5, [1]), (0, 0, [0])] := by decide +kernel

/-- R115, R116: an hour close, a day close, and an hour already open. -/
theorem test_whole_hour :
    let due := fun h => { booked with clock := { booked.clock with timeOfDay := h * 3600, hoursDue := [h] } }
    (after .wholeHour (due 7)).currentBook.map (fun b => (b.hours.toList.take 2).map (·.state)) = some [.closed, .opened] ∧
    (let t := after .wholeHour
      { due 6 with currentBook := some { book with hours := (Vector.replicate 24 Hour.fresh).setIfInBounds 23 { Hour.fresh with state := .opened } } }
     t.previousBook.map (·.uag) = some (some 1000) ∧ t.currentBook.map (fun b => (b.opening, b.gasDay)) = some (0, 1205)) ∧
    (after .wholeHour (due 6)).currentBook = some book := by decide +kernel

/-- R113, R115, R116: the reports of a close, the day's, DAY-OVERWRITTEN over a book not collected, and an hour reopened. -/
theorem test_whole_hour_reports :
    let last := { book with hours := (Vector.replicate 24 Hour.fresh).setIfInBounds 23 { Hour.fresh with state := .opened } }
    let t := after .wholeHour { booked.putDistrict 2 { streets with active := some 1300 } with
      clock := { booked.clock with timeOfDay := 21600, hoursDue := [6] }
      currentBook := some last, previousBook := some book }
    t.backlog.map (·.form) = [.reference (.hour 0 1205 23 2), .reference (.hour 0 1205 23 7),
      .reference (.alarm ⟨.dayOverwritten, 0, none⟩), .reference (.day 0 1205)] ∧
    t.currentBook.map (fun b => (b.hours[0].state, b.hours[0].districts[1].minActive, b.hours[0].districts[1].peakRate))
      = some (.opened, some 1300, 0) ∧
    (openPresentHour { booked with
      clock := { booked.clock with timeOfDay := 21600 }
      currentBook := some { book with hours := book.hours.setIfInBounds 0 { Hour.fresh with state := .closed } } }).currentBook.map
      (fun b => (b.hours[0].state, b.hours[0].makes[1].flags.clockSet)) = some (.opened, true) := by decide +kernel

/-! ### Requests: each result at a boundary of its clause, and an effect -/

def settingsFields : List Nat :=
  two 18600 ++ [6, 255, 191, 1, 4, 5, 60, 0, 1, 3, 5, 255, 1, 0, 1, 1, 1, 1] ++ List.replicate 14 0

theorem test_load_settings :
    results .loadSettings 1 idle
      [settingsFields, settingsFields.drop 1, settingsFields.set 33 2, settingsFields.set 7 4, settingsFields.set 3 192]
      = [some 0, some 1, some 1, some 2, some 2] ∧
    (granted .loadSettings 1 settingsFields idle).settings.enables.officeToS = false := by decide +kernel

theorem test_load_station :
    results .loadStation 2 yard
      [[17, 0, 8] ++ two 600 ++ two 500, [90, 5, 0] ++ two 0 ++ two 10000, [18, 6, 0] ++ two 0 ++ two 500,
        [240, 5, 0] ++ two 0 ++ two 500, [18, 1, 7] ++ two 0 ++ two 500, [18, 1, 6] ++ two 601 ++ two 500]
      = [some 0, some 0, some 1, some 2, some 2, some 2] ∧
    results .loadStation 2 { idle with directory := (List.range 48).map (fun i => station (i + 1) .general 0 .empty []) }
      [[49, 5, 0] ++ two 0 ++ two 500, [48, 5, 0] ++ two 0 ++ two 500] = [some 6, some 0] ∧
    (granted .loadStation 2 ([90, 5, 0] ++ two 0 ++ two 10000) yard).strangers = [] := by decide +kernel

theorem test_drop_station :
    results .dropStation 3 yard [[17], [18], [0], [240], []] = [some 0, some 4, some 2, some 2, some 1] ∧
    (granted .dropStation 3 [17] yard).directory.map (·.address) = [44] := by decide +kernel

/-- R58, R76: a dropped station's office orders are superseded, slot first, and its closes end, the one CLOSED a success. -/
theorem test_drop_station_ends :
    let s := { yard.putRouting 3 (routed [⟨2, false, .top⟩, ⟨3, true, .top⟩] (some 9)) with
      directory := [station 17 .holder 3 (.onLine ⟨.office, 17, orderBody 5 7, 1, 0⟩ 0 1) [closeOf 9, openOrder 0]] }
    let t := granted .dropStation 3 [17] s
    (t.backlog.map (·.form)).take 2
      = [.full (.superseded 17 (some 5) (some 7) .dropped), .full (.superseded 17 (some 1) (some 4) .dropped)] ∧
    sequenceOf t = some ([], none) ∧ failedValves t = [none, some 2] := by decide +kernel

/-- R76: an automatic SET that ends with its station sets the set-failed flag; ORDER-FAILED is not raised. -/
theorem test_drop_station_set :
    let t := granted .dropStation 3 [44] (setOutstanding streets)
    (t.district 2).map (·.setFailed) = some true ∧ t.alarms = [] := by decide +kernel

def pointFields (n station channel kind lo hi : Nat) : List Nat :=
  [n, station, channel, kind, 0] ++ four lo ++ four hi ++ two 0 ++ two 65535

theorem test_load_point :
    results .loadPoint 4 yard
      [pointFields 191 240 3 0 0 1, pointFields 255 1 0 0 0 1, pointFields 192 1 0 0 0 1, pointFields 1 240 4 0 0 1,
        pointFields 1 1 0 0 1 1, pointFields 1 1 0 2 1 1, pointFields 21 30 0 1 0 0, pointFields 20 30 0 1 0 0,
        pointFields 24 31 0 3 0 0]
      = [some 0, some 1, some 2, some 2, some 2, some 0, some 3, some 5, some 1] ∧
    ((granted .loadPoint 4 (pointFields 24 31 9 0 4294967295 5) yard).point 24).map (fun p => (p.lo, p.channel))
      = some (-1, 9) := by decide +kernel

theorem test_drop_point :
    results .dropPoint 5 yard [[24], [191], [192], [255], [20], []]
      = [some 0, some 4, some 2, some 1, some 5, some 1] ∧
    (granted .dropPoint 5 [24] yard).point 24 = none := by decide +kernel

theorem test_load_vapour :
    results .loadVapour 6 idle
      [[40, 1] ++ two 10000, [0, 27] ++ List.replicate 54 0, [40, 2] ++ two 1 ++ two 1, [0, 0], [0, 1], [0, 1] ++ two 10001]
      = [some 0, some 0, some 2, some 2, some 1, some 2] ∧
    vapourLookup 4000 (granted .loadVapour 6 ([40, 1] ++ two 7375) idle) = (7375, false) := by decide +kernel

theorem test_load_local :
    results .loadLocal 7 idle [[1, 8, 1], [0, 12, 60], [2, 8, 1], [1, 9, 1], [1, 8, 61], [1, 8]]
      = [some 0, some 0, some 1, some 2, some 2, some 1] ∧
    (granted .loadLocal 7 [1, 8, 30] idle).localConverter
      = ⟨true, 8, 30, .settling, .running 2, .running 30, false⟩ ∧
    (granted .loadLocal 7 [0, 8, 30] converting).localConverter.running = .disabled := by decide +kernel

/-- The holder OUT of reckoning. -/
def laidUp : State := yard.putHolder 3 { marks with inReckoning := false }

def holderFields (h station gauge stages : Nat) : List Nat :=
  [h, station, gauge, 255, 191] ++ four 10000000 ++ [stages] ++ two 65000 ++ two 500 ++ two 2500 ++ two 24000 ++ two 26000
    ++ two 500 ++ [1, 0, 1, 0, 1, 0]

theorem test_load_holder :
    results .loadHolder 8 yard
      [holderFields 4 18 191 4, holderFields 4 18 255 4, holderFields 4 18 192 4, holderFields 9 18 20 4,
        holderFields 4 17 20 4, holderFields 4 44 20 4, holderFields 3 17 20 4, (holderFields 4 18 20 4).set 27 2]
      = [some 0, some 1, some 2, some 2, some 3, some 3, some 5, some 1] ∧
    results .loadHolder 8 laidUp [holderFields 3 17 20 1, holderFields 3 239 20 1] = [some 0, some 0] ∧
    ((granted .loadHolder 8 (holderFields 3 239 20 1) laidUp).routing 3).map (·.confirmed.toList)
      = some (List.replicate 7 .unknown) := by decide +kernel

/-- R42, R59: a first load at a station where an OPEN waits, and a changed station: CLOSE-FAILED cleared, the outlet set
handed over empty, the OPEN at the new station withdrawn. -/
theorem test_load_holder_withdraws :
    let waiting := { laidUp.putRouting 3 (routed [] none) with
      directory := [station 17 .holder 3 .empty [], station 18 .general 0 (.onLine (openOrder 1) 0 1) [openOrder 0]]
      alarms := [⟨⟨.closeFailed, 3, some 6⟩, .active, 1, none, none, true, false⟩]
      outletSets := laidUp.outletSets.setIfInBounds 2 #v[true, true, false, false, false, false] }
    let moved := granted .loadHolder 8 (holderFields 3 18 20 1) waiting
    let first := granted .loadHolder 8 (holderFields 4 18 20 1) waiting
    [moved, first].map (fun t => ((t.station 18).map (fun e => (e.slot, e.pendingList.length)), t.alarms.map (·.key.kind)))
      = [(some (.empty, 0), [.districtUnsupplied]), (some (.empty, 0), [.closeFailed])] ∧
    moved.outletSets[2] = DistrictSet.empty ∧ (moved.district 2).map (·.supplied) = some false ∧
    (moved.backlog.map (·.form)).filter (· == .full (.superseded 17 (some 1) (some 4) .out))
      = List.replicate 2 (.full (.superseded 17 (some 1) (some 4) .out)) := by decide +kernel

theorem test_load_lift :
    results .loadLift 9 laidUp
      [[3, 1] ++ two 0 ++ four 1 ++ two 5000, [3, 3] ++ two 65000 ++ four 400000 ++ two 0, [3, 4] ++ two 9 ++ four 1 ++ two 0,
        [3, 1] ++ two 1 ++ four 1 ++ two 0, [4, 1] ++ two 0 ++ four 1 ++ two 0, [3, 5] ++ two 0 ++ four 1 ++ two 0, [3, 1]]
      = [some 0, some 0, some 4, some 2, some 4, some 2, some 1] ∧
    results .loadLift 9 yard [[3, 1] ++ two 0 ++ four 1 ++ two 0] = [some 5] ∧
    ((granted .loadLift 9 ([3, 2] ++ two 8000 ++ four 5 ++ two 7) laidUp).holder 3).map (fun r => r.lifts[1])
      = some (some ⟨8000, 5, 7⟩) := by decide +kernel

theorem test_holder_service :
    results .holderService 10 laidUp [[3, 1], [3, 0], [4, 1], [9, 1], [0, 1], [3, 2], [3]]
      = [some 0, some 0, some 4, some 2, some 2, some 1, some 1] ∧
    results .holderService 10 yard [[3, 1], [3, 0]] = [some 0, some 0] ∧
    results .holderService 10 (yard.putHolder 3 { marks with inReckoning := false, stageCount := 4 }) [[3, 1]] = [some 10] ∧
    ((granted .holderService 10 [3, 1] laidUp).holder 3).map (fun r => (r.inReckoning, r.blind, r.rise))
      = some (true, false, some 20000) ∧
    ((granted .holderService 10 [3, 1] (laidUp.putPoint 20 none)).holder 3).isSome = true := by decide +kernel

theorem test_holder_service_waits_for_a_gauge :
    let s := laidUp.putPoint 20 (some { levelPoint 30 0 none with quality := .stale })
    results .holderService 10 s [[3, 1]] = [some 0] ∧
    ((granted .holderService 10 [3, 1] s).holder 3).map (fun r => (r.inReckoning, r.blind)) = some (true, true) := by
  decide +kernel

def districtFields (d governor stepPeriod meter : Nat) : List Nat :=
  [d, governor] ++ two 1000 ++ two 2400 ++ two 150 ++ two stepPeriod ++ two 1 ++ [200, meter] ++ two 60000 ++ two 1000
    ++ two 2000 ++ [255] ++ two 900 ++ [100] ++ two 10 ++ two 2000

theorem test_load_district :
    results .loadDistrict 11 yard
      [districtFields 2 44 30 3, districtFields 2 239 600 255, districtFields 3 44 60 255, districtFields 3 45 60 3,
        districtFields 3 17 60 255, districtFields 3 45 29 255, districtFields 7 45 60 255, districtFields 3 45 60 255,
        [3]]
      = [some 0, some 0, some 3, some 3, some 3, some 2, some 2, some 0, some 1] ∧
    results .loadDistrict 11 stepping [districtFields 2 44 60 255] = [some 5] ∧
    (granted .loadDistrict 11 (districtFields 3 45 60 255) yard).alarms.map (·.key)
      = [⟨.districtUnsupplied, 3, none⟩] := by decide +kernel

theorem test_load_profile :
    results .loadProfile 12 yard
      [[2, 1] ++ two 1439 ++ two 10000, [2, 0], [1, 0], [2, 2] ++ two 5 ++ two 1 ++ two 5 ++ two 1,
        [2, 1] ++ two 1440 ++ two 0, [7, 0], [2, 1]]
      = [some 0, some 0, some 4, some 2, some 2, some 2, some 1] ∧
    results .loadProfile 12 stepping [[2, 0]] = [some 10] ∧
    ((granted .loadProfile 12 ([2, 1] ++ two 9 ++ two 8) yard).district 2).map (fun r => (r.nextProfile, r.nextPending))
      = some ([⟨9, 8⟩], true) := by decide +kernel

theorem test_step_now :
    results .stepNow 13 yard [[2], [1], [7], [0], []] = [some 0, some 4, some 2, some 2, some 1] ∧
    ((granted .stepNow 13 [2] stepping).district 2).map (·.active) = some (some 1500) := by decide +kernel

theorem test_district_mode :
    results .districtMode 14 yard [[2, 0], [2, 1], [2, 2], [2, 3], [7, 0], [1, 0], [2]]
      = [some 0, some 0, some 0, some 1, some 2, some 4, some 1] ∧
    results .districtMode 14 (yard.putDistrict 2 { streets with activeProfile := [] }) [[2, 2]] = [some 10] ∧
    results .districtMode 14 { yard with clock := Clock.reset } [[2, 2]] = [some 7] ∧
    ((granted .districtMode 14 [2, 2] yard).district 2).map (·.mode) = some .auto ∧
    ((granted .districtMode 14 [2, 1] stepping).district 2).map (·.mode) = some .manual ∧
    ((granted .districtMode 14 [2, 0] stepping).station 44).map (·.slot)
      = some (.bufferWait ⟨.scheduler 2, 44, orderBody 4 0, 0, 0⟩) := by decide +kernel

/-- The orders waiting at the governor station, by origin and body. -/
def waitingAt44 (t : State) : Option (List (Bool × List Byte)) :=
  (t.station 44).map (fun e => e.pendingList.map (fun o => (o.fromOffice, o.body)))

/-- The governor station with two office orders and two automatic ones waiting behind one that is outstanding. -/
def governed (m : Mode) : State :=
  let auto := fun code : Nat => (⟨.scheduler 2, 44, orderBody code 1100, 0, 0⟩ : Order)
  let office := fun code : Nat => (⟨.office, 44, orderBody code 1000, 0, 0⟩ : Order)
  { yard.putDistrict 2 { streets with mode := m } with
    directory := [station 44 .governor 2 (.onLine (office 5) 0 1) [office 3, auto 3, office 6, auto 4]] }

/-- R64, R81: what RELEASED, MANUAL and AUTO remove from the governor station's list, and what they place there. -/
theorem test_district_mode_withdraws :
    let auto := fun code v => (false, orderBody code v)
    let office := fun code => (true, orderBody code 1000)
    waitingAt44 (granted .districtMode 14 [2, 0] (governed .auto)) = some [office 3, office 6, auto 4 0] ∧
    waitingAt44 (granted .districtMode 14 [2, 1] (governed .auto)) = some [office 3, office 6, auto 4 1100] ∧
    waitingAt44 (granted .districtMode 14 [2, 2] (governed .manual)) = some [auto 3 1350, office 6, auto 4 1100] := by
  decide +kernel

theorem test_fog :
    results .fog 15 yard
      [[0] ++ two 1000 ++ two 720, [2] ++ two 0 ++ two 5, [1] ++ two 1 ++ two 1, [7] ++ two 1 ++ two 1, [2] ++ two 1001 ++ two 1,
        [2] ++ two 1 ++ two 721, [2]]
      = [some 0, some 0, some 4, some 2, some 2, some 2, some 1] ∧
    results .fog 15 idle [[0] ++ two 1 ++ two 1] = [some 4] ∧
    ((granted .fog 15 ([0] ++ two 1000 ++ two 720) yard).district 2).map (fun r => (r.fogRaise, r.fogTimer))
      = some (1000, .running 720) := by decide +kernel

def meterFields (m kind target count : Nat) : List Nat :=
  [m, kind, target, count, 255, 191] ++ two 10000 ++ [255] ++ four 100000 ++ two 10000

theorem test_load_meter :
    results .loadMeter 16 yard
      [meterFields 3 0 2 30, meterFields 4 0 2 30, meterFields 4 1 2 191, meterFields 4 1 3 30, meterFields 4 0 7 30,
        meterFields 4 2 1 30, meterFields 255 0 1 30, meterFields 4 0 1 255, meterFields 9 0 1 30]
      = [some 0, some 3, some 0, some 2, some 2, some 1, some 1, some 1, some 2] ∧
    ((granted .loadMeter 16 (meterFields 3 0 2 31) yard).meter 3).map (fun r => (r.lastCount, r.lastCountValid, r.pulseWeight))
      = some (65424, false, 100000) := by decide +kernel

theorem test_set_clock :
    results .setClock 17 booked
      [two 1205 ++ four 22620 ++ [0], two 1205 ++ four 22621 ++ [0], two 1205 ++ four 22020 ++ [0], two 1205 ++ four 22019 ++ [0],
        two 1205 ++ four 22320 ++ [0], two 9 ++ four 86399 ++ [1], two 9 ++ four 86400 ++ [1], two 9 ++ four 0 ++ [2]]
      = [some 0, some 8, some 0, some 8, some 0, some 0, some 2, some 1] ∧
    results .setClock 17 idle [two 65535 ++ four 86399 ++ [0]] = [some 0] ∧
    (granted .setClock 17 (two 1205 ++ four 25200 ++ [1]) booked).currentBook.map
      (fun b => (b.hours.toList.take 2).map (·.state)) = some [.closed, .opened] := by decide +kernel

/-- R102 and R104: the first setting opens a book; a forced step into another gas day closes the day. -/
theorem test_set_clock_books :
    (granted .setClock 17 (two 1205 ++ four 18000 ++ [0]) idle).currentBook.map (fun b => (b.gasDay, b.hours[23].state))
      = some (1204, .opened) ∧
    (granted .setClock 17 (two 1206 ++ four 25200 ++ [1]) booked).previousBook.map (·.gasDay) = some 1205 := by decide +kernel

/-- R102: the first setting adds the unclocked sums with their flags and CLOCK-SET, at the yard stock, and empties them. -/
theorem test_first_setting :
    let held : HourFlags := ⟨true, false, false, false, false⟩
    let t := granted .setClock 17 (two 1205 ++ four 21600 ++ [0])
      { idle.putMeter 3 { outletMeter with unclockedVolume := 500, unclockedEnergy := 9000, unclockedFlags := held } with
        yardStock := 77 }
    t.currentBook.map (fun b => (b.opening, b.hours[0].districts[1].volume, b.hours[0].districts[1].flags.value))
      = some (77, 500, 5) ∧
    (t.meter 3).map (fun m => (m.unclockedVolume, m.unclockedEnergy, m.unclockedFlags.value)) = some (0, 0, 0) := by
  decide +kernel

theorem test_collect_day :
    let s := { booked with previousBook := some { book with gasDay := 1204 } }
    results .collectDay 18 s [two 1204, two 1205, [4]] = [some 0, some 4, some 1] ∧
    results .collectDay 18 idle [two 0] = [some 4] ∧
    (granted .collectDay 18 (two 1204) s).previousBook.map (·.collected) = some true := by decide +kernel

/-- R170: boundaries of selectors, items and parts; the Vapour Table takes two parts. -/
theorem test_read :
    results .read 19 yard
      [[18, 0, 1], [19, 0, 1], [0, 0, 1], [1, 1, 1], [1, 0, 0], [5, 1, 1], [5, 9, 1], [3, 0, 2], [3, 0, 3], [13, 24, 1],
        [12, 0, 1], [2, 192, 1], [18, 0]]
      = [some 0, some 1, some 1, some 2, some 2, some 4, some 2, some 0, some 4, some 2, some 4, some 2, some 1] ∧
    (granted .read 19 [17, 0, 1] { idle with backlogOverflow := true }).backlogOverflow = false := by decide +kernel

/-- R149, R170: of a district, Pa in two octets and a rate in four. -/
theorem test_read_district_forms :
    ((districtContent 2 streets yard).take 29).map (·.toNat)
      = [2, 44] ++ two 1000 ++ two 2400 ++ two 150 ++ two 60 ++ two 100 ++ two 20 ++ [3] ++ four 4000 ++ two 120 ++ two 400
        ++ [24] ++ two 900 ++ [50] ++ two 10 := by decide +kernel

/-- R105, R149: the unclocked flags of a meter, in the order of their own list. -/
theorem test_read_unclocked_flags :
    let m : Meter := { outletMeter with unclockedFlags := ⟨true, false, false, false, true⟩ }
    ((meterContent 3 m).getLast?.map (·.toNat), (unclockedOctets (some m)).getLast?.map (·.toNat)) = (some 5, some 5) := by
  decide +kernel

/-- R149: counts in two octets: the charge and run counts of a port with the lengths of its queues between them, and the
record count of the Alarm List. -/
theorem test_read_counts :
    let s := { idle with
      line := { idle.line with chargeO := 3, portO := { idlePort with runCount := 7 } }, alarms := [unsupplied .active false] }
    ((portContent .o s).drop 19).map (·.toNat) = [0, 3, 0, 0, 0, 7] ∧
    ((alarmsContent s).take 3).map (·.toNat) = [0, 1, 0] := by decide +kernel

/-- R149, R170: the content of BACKLOG and of UNIT. -/
theorem test_read_contents :
    ((contentOf 17 0 { oweFull (.start .cold) idle with backlogOverflow := true }).map (·.map (·.toNat)))
      = some [0, 1, 1, 8] ∧
    (contentOf 18 0 { idle with lastCause := .warm }).map (·.map (·.toNat)) = some [2] ∧
    contentOf 12 1 idle = none := by decide +kernel

theorem test_ack_alarm :
    let s := { idle with alarms := [unsupplied .active false] }
    results .ackAlarm 20 s [[10, 2, 0, 255], [10, 2, 0, 1], [10, 7, 0, 1], [10, 3, 0, 1], [15, 2, 0, 1], [7, 1, 7, 1], [10, 2, 0, 0], []]
      = [some 0, some 9, some 2, some 4, some 1, some 2, some 2, some 1] ∧
    (granted .ackAlarm 20 [10, 2, 0, 255] s).alarms = [unsupplied .active true] ∧
    (granted .ackAlarm 20 [10, 2, 9, 255] { idle with alarms := [unsupplied .clearedUnacked false] }).alarms = [] := by
  decide +kernel

theorem test_reset :
    results .reset 21 idle [[0], [1], [2], []] = [some 0, some 0, some 1, some 1] ∧
    (granted .reset 21 [1] idle).unit = .resetPending .cold := by decide +kernel

/-- R169: an ANSWER joins the tail of the office ROUTINE queue; a MANAGE that is left oldest is a request. -/
theorem test_answers :
    firstOfPort .o idle.line.received = none ∧
    ((answered ⟨.o, ⟨.general, some .o⟩, []⟩ 18 .accepted [] idle).port .o).routine.map (·.octets)
      = [frame 0 240 5 (bytes [18, 0])] ∧
    (takeReceived .o (drain (asked 21 [] idle))).map (fun x => kindOf x.1.octets) = some 4 := by decide +kernel

/-- What a drain leaves of one telegram of port O: the telegrams waiting, the free general buffers, the body answered. -/
def drained (u : UnitState) (octets : List Byte) : Nat × Nat × List (List Byte) :=
  let t := drain { standing .o octets idle with unit := u }
  (t.line.received.length, t.line.freeGeneral, (t.port .o).routine.map (fun x => bodyOf x.octets))

/-- R135, R169: each turn of the drain: an empty body and the codes 0, 22 and 21; another address; RESET-PENDING; a COMMAND. -/
theorem test_drain :
    [[], [0], [22], [21]].map (fun b => drained .ready (frame 240 0 4 (bytes b)))
      = [(0, 88, [bytes [0, 1]]), (0, 88, [bytes [0, 1]]), (0, 88, [bytes [22, 1]]), (1, 88, [])] ∧
    drained .ready (frame 17 0 4 (bytes [21])) = (0, 89, []) ∧
    drained (.resetPending .warm) (frame 240 0 4 (bytes [21])) = (0, 89, []) ∧
    drained .ready (frame 240 0 2 (bytes [1])) = (1, 88, []) := by decide +kernel

/-! ### Stock -/

/-- R33: every band at its mark and with its hysteresis, for a holder that was in HIGH. -/
theorem test_conditions :
    [26000, 25999, 24000, 23800, 23799, 2500, 2501, 500].map (conditionAfter { marks with condition := .high })
      = [.top, .high, .high, .high, .normal, .low, .normal, .landed] ∧
    (yard.holder 3).map (·.condition) = some .normal ∧
    ((reckon 3 26000 yard).holder 3).map (·.condition) = some .top := by decide +kernel

/-- Rise, stage and actual volume of holder 3; then its over-top and blind marks. -/
def seen (t : State) : Option (Option Nat × Option Nat × Option Nat) :=
  (t.holder 3).map (fun r => (r.rise, r.stage, r.actualVolume))
def marksOf (t : State) : Option (Bool × Bool) := (t.holder 3).map (fun r => (r.overTop, r.blind))

/-- A reading of holder 3's gauge that FAILED. -/
def gaugeFailed (s : State) : State := holderUpdate ⟨20, .level, some 20000, .failed, true⟩ s 3

/-- R24 to R27: a complete table; stage and volume just under and at a pickup, and over the top. -/
theorem test_reckoning_acts :
    (∀ l ∈ marks.lifts.toList.take marks.stageCount, l ≠ none) ∧
    [8999, 9000, 27001].map (fun g => seen (reckon 3 g yard))
      = [some (some 8999, some 1, some 11298800), some (some 9000, some 2, some 11300000), some (some 27000, some 3, some 70000000)] ∧
    [8999, 27001].map (fun g => marksOf (reckon 3 g yard)) = [some (false, false), some (true, false)] := by decide +kernel

/-- R24, R34: the alarms of a rise over the top. -/
theorem test_reckoning_alarms :
    (reckon 3 27001 yard).alarms.map (·.key.kind) = [.overTop, .holderTop] := by decide +kernel

/-- R36, R37: a gauge that fails while the holder sees and while it is blind, and a blind holder reckoned. -/
theorem test_blindness :
    let blind := yard.putHolder 3 { marks with blind := true }
    [yard, blind].map (fun s => seen (gaugeFailed s)) = [some (none, none, none), seen blind] ∧
    [yard, blind].map (fun s => marksOf (gaugeFailed s)) = [some (false, true), some (false, true)] ∧
    (gaugeFailed yard).alarms.map (·.key.kind) = [.holderBlind] ∧
    marksOf (reckon 3 20000 blind) = some (false, false) := by decide +kernel

/-- R23, R27: the pressure role: a GOOD value in range, one out of range and one not GOOD, for a stage held and for none. -/
theorem test_pressure_role :
    let put := fun (stage : Option Nat) value quality =>
      ((holderUpdate ⟨21, .level, some value, quality, true⟩
        ((yard.putHolder 3 { marks with pressurePoint := some 21, stage := stage }).putPoint 21
          (some { levelPoint 30 1 (some value) with quality := quality })) 3).holder 3).map (·.pressure)
    [put (some 2) 1600 .good, put (some 2) 10001 .good, put (some 2) 1600 .suspect, put none 1600 .good]
      = [some (some 1600), some (some 1380), some (some 1380), some none] := by decide +kernel

/-- R30: the ends of the ranges. -/
theorem test_correction_ranges :
    (∀ (i x : Nat), idle.vapour[i]? = some (some x) → x ≤ 10000) ∧
    standardCorrection 1000 0 (-2000) idle = (1138, true) ∧ standardCorrection 1000 10000 5000 idle = (980, true) := by
  refine ⟨?_, by decide +kernel, by decide +kernel⟩
  intro i x h
  simp [idle, State.reset, Vector.getElem?_replicate] at h

/-- R12: a whole degree, a share with an empty entry, both ends of the clamp; R28: a value taken, at the ends of its range
and beyond, and no point named. -/
theorem test_vapour_and_barometer :
    [1000, 1050, 4100, -5].map (fun t => vapourAt t corrected) = [(1228, false), (614, true), (0, true), (0, true)] ∧
    [1000, 1050, 4100, -5].map (fun t => vapourLookup t corrected) = [(1228, false), (614, true), (0, true), (0, true)] ∧
    [84999, 85000, 110000, 110001].map (fun v =>
        barometer (corrected.putPoint 25 (some { levelPoint 31 5 (some v) with hi := 120000 })))
      = [(101325, true), (85000, false), (110000, false), (101325, true)] ∧
    barometer idle = (101325, true) := by decide +kernel

/-! ### States that meet the invariants -/

/-- A state with buffers in use in every place, an alarm whose report is owed, and the yard's records. -/
def busy : State :=
  { booked with
    line := { booked.line with
      portO := { idlePort with transmitter := .sending (waitingTelegram .plain), urgent := [⟨⟨.reserve, none⟩, [], .plain⟩] }
      portN := { idlePort with receiver := .receiving ⟨.general, some .n⟩ [octet 7] 1 false }
      received := [⟨.o, ⟨.general, some .o⟩, []⟩]
      freeGeneral := 85, freeReserve := 7, chargeO := 1, chargeN := 1 }
    directory := [station 17 .holder 3 (.bufferWait (openOrder 0)) [], station 44 .governor 2 .empty []]
    alarms := [{ unsupplied .active false with reportOwed := true }]
    backlog := [⟨.reference (.alarm ⟨.districtUnsupplied, 2, none⟩), none⟩] }

theorem test_busy_steps : ∃ t, step busy = .next t := ⟨busy, rfl⟩

theorem test_buffers_conserved : BuffersConserved busy where
  general := by decide +kernel
  reserve := by decide +kernel
  charges := by intro p; cases p <;> decide +kernel

theorem test_records_consistent : RecordsConsistent busy where
  alarmsFit := by decide
  alarmsDistinct := by decide +kernel
  counts := by decide +kernel
  backlogFits := by decide +kernel
  oneReference := by decide +kernel
  owed := by
    intro _ key
    simp [busy, referenced, unsupplied, beq_eq_decide]
  partsFit := by simp [busy]

theorem test_directory_consistent : DirectoryConsistent busy where
  fits := by decide
  strangersFit := by decide
  distinct := by decide +kernel
  listsFit := by decide +kernel

theorem busy_holder {h : Nat} {r : Holder} (hr : busy.holder h = some r) : h = 3 ∧ r = marks := by
  rcases h with _ | _ | _ | _ | _ | _ | _ | _ | _ | _ <;>
    simp_all [busy, booked, yard, idle, State.holder, State.putHolder, State.putPoint, State.putRouting, State.putDistrict,
      State.putMeter, recordGet, recordSet, tableGet, tableSet, State.reset]

theorem test_opens_allowed : OpensAllowed busy where
  automaticNeverOpens := by decide +kernel
  stationsDistinct := by
    intro h k r q hr hq _
    rw [(busy_holder hr).1, (busy_holder hq).1]
  noForbiddenOpen := by
    intro h r e o v hr he ho hv
    obtain ⟨-, rfl⟩ := busy_holder hr
    cases v <;> rfl

theorem test_active_within_limits : ActiveWithinLimits stepping := by
  intro d r v hr _ hv
  rcases d with _ | _ | _ | _ | _ | _ | _ | _ <;>
    simp_all [stepping, yard, idle, State.district, State.putHolder, State.putPoint, State.putRouting, State.putDistrict,
      State.putMeter, recordGet, recordSet, tableGet, tableSet, State.reset]
  subst hr
  simp [streets] at hv ⊢
  omega

theorem test_hours_consistent : HoursConsistent busy where
  oneOpen := fun _ => ⟨book, rfl, by decide +kernel⟩
  noBook := by decide +kernel
  previousClosed := by intro b hb; cases hb
  stocksMeet := by intro b p _ hp; cases hp

end Sys2Proof.Tests
end

section
/-! SUPPORT. The statements' words about samples, meters and hours, each tied to the model's operation of the same
meaning. -/

namespace Sys2Proof.Laws

open Sys2Proof Sys2Proof.Machine Sys2Proof.Claims

/-! ### Words: the open hour (R111, R112, R114) -/

theorem modOpenHour_eq_inOpenHour (f : Hour → Hour) (s : State) : modOpenHour f s = inOpenHour f s := rfl

/-- A vector with one member changed, member by member. -/
theorem vectorModify_eq_ofFn {α : Type} {n : Nat} (v : Vector α n) (i : Nat) (f : α → α) :
    vectorModify v i f = Vector.ofFn (fun j : Fin n => if j.val + 1 = i + 1 then f v[j] else v[j]) := by
  ext j hj
  unfold vectorModify
  by_cases hi : i < n
  · by_cases hj' : i = j
    · subst hj'
      simp [hi]
    · simp [hi, hj', Ne.symm hj']
  · have : j ≠ i := by omega
    simp [hi, this]

/-- No member of an hour's vectors has the number 0. -/
theorem ofFn_number_zero {α : Type} {n : Nat} (v : Vector α n) (f : α → α) :
    Vector.ofFn (fun j : Fin n => if j.val + 1 = 0 then f v[j] else v[j]) = v := by
  ext j hj
  simp

theorem modDistrict_eq_inDistrict (d : Nat) (f : DistrictHour → DistrictHour) (r : Hour) :
    r.modDistrict d f = inDistrict d f r := by
  cases d with
  | zero => simp only [Hour.modDistrict, inDistrict, ofFn_number_zero]
  | succ i => simp only [Hour.modDistrict, inDistrict, vectorModify_eq_ofFn]

theorem modMake_eq_inMake (m : Nat) (f : MakeHour → MakeHour) (r : Hour) : r.modMake m f = inMake m f r := by
  cases m with
  | zero => simp only [Hour.modMake, inMake, ofFn_number_zero]
  | succ i => simp only [Hour.modMake, inMake, vectorModify_eq_ofFn]

theorem hourAdd_eq_inTarget (target : MeterTarget) (volume energy : Nat) (flags : HourFlags) :
    Hour.add target volume energy flags = inTarget target volume energy flags := by
  funext r
  cases target with
  | outlet d => exact modDistrict_eq_inDistrict _ _ _
  | make k => exact modMake_eq_inMake _ _ _

theorem account_eq_summed (m : Nat) (r : Meter) (volume energy : Nat) (flags : HourFlags) (s : State) :
    account m r volume energy flags s = summed m r volume energy flags s := by
  unfold account summed
  rw [hourAdd_eq_inTarget]
  rfl

/-! ### Words: values of points -/

theorem goodValue_eq_valueWithin (n : Option Nat) (lo hi : Int) (s : State) :
    goodValue n lo hi s = valueWithin n lo hi s := by
  unfold goodValue valueWithin
  cases n.bind s.point with
  | none => rfl
  | some p =>
    obtain ⟨_, _, _, _, _, _, _, _, _, value, quality, _⟩ := p
    cases quality <;> cases value <;> simp [Option.filter]

theorem resolve_eq (taken : Option Int) (fallback : Int) :
    resolve taken fallback = (taken.getD fallback, taken.isNone) := by
  cases taken <;> rfl

theorem calorificValue_eq (s : State) :
    calorificValue s =
      let cv := valueWithin s.settings.calorimeterPoint 10000 30000 s
      (cv.elim s.settings.declaredCv (·.toNat), cv.isNone) := by
  simp only [calorificValue, resolve_eq, goodValue_eq_valueWithin]
  cases valueWithin s.settings.calorimeterPoint 10000 30000 s <;> rfl

/-! ### Words: meters (R107 to R112) -/

section Meters

variable {s : State} {m : Nat} {r : Meter}

theorem takeCount_eq_countTaken (c : Nat) (h : s.meter m = some r) : takeCount m c s = countTaken m c r s := by
  simp only [takeCount, h, countTaken, increment, meterPressure, meterTemperature, calorificValue_eq, resolve_eq,
    goodValue_eq_valueWithin, account_eq_summed, countDelta, Bool.not_eq_true', Bool.and_comm (Option.isSome _)]
  rfl

theorem loseCount_eq_summed (h : s.meter m = some r) :
    loseCount m s = summed m { r with lastCountValid := false } 0 0 gapFlag s := by
  simp only [loseCount, h, account_eq_summed]
  rfl

theorem takePeriod_eq_periodTaken (p : Nat) (h : s.meter m = some r) : takePeriod m p s = periodTaken m p r s := by
  simp only [takePeriod, h, periodTaken, meterRate, rounded]
  cases r.target with
  | make _ => rfl
  | outlet d => exact congrArg (modOpenHour · _) (funext fun q => modDistrict_eq_inDistrict _ _ q)

/-- R107: an update of a COUNT point at one meter: a GOOD entry is counted, going STALE or NONE loses the count. -/
theorem meterUpdate_count (n : Nat) (value : Option Int) (quality : Quality) (fromEntry : Bool)
    (h : s.meter m = some r) :
    meterUpdate ⟨n, .count, value, quality, fromEntry⟩ s m
      = meterUpdated ⟨n, .count, value, quality, fromEntry⟩ s m := by
  by_cases hn : r.countPoint = n
  · cases fromEntry with
    | true => cases quality <;> cases value <;>
        simp [meterUpdate, meterUpdated, h, hn, meterCountUpdate, takeCount_eq_countTaken _ h]
    | false => cases quality <;> simp [meterUpdate, meterUpdated, h, hn, meterCountUpdate, loseCount_eq_summed h]
  · simp [meterUpdate, meterUpdated, h, hn]

/-- R107: an update of a PERIOD point at one meter: a GOOD entry forms the rate. -/
theorem meterUpdate_period (n : Nat) (value : Option Int) (quality : Quality) (fromEntry : Bool)
    (h : s.meter m = some r) :
    meterUpdate ⟨n, .period, value, quality, fromEntry⟩ s m
      = meterUpdated ⟨n, .period, value, quality, fromEntry⟩ s m := by
  by_cases hn : r.periodPoint = some n
  · cases fromEntry with
    | true => cases quality <;> cases value <;>
        simp [meterUpdate, meterUpdated, h, hn, meterPeriodUpdate, takePeriod_eq_periodTaken _ h]
    | false => simp [meterUpdate, meterUpdated, h, hn, meterPeriodUpdate]
  · simp [meterUpdate, meterUpdated, h, hn]

theorem meterUpdate_eq_meterUpdated (u : PointUpdate) : meterUpdate u = meterUpdated u := by
  funext s m
  obtain ⟨n, kind, value, quality, fromEntry⟩ := u
  cases h : s.meter m with
  | none => simp [meterUpdate, meterUpdated, h]
  | some r =>
    cases kind with
    | level => simp [meterUpdate, meterUpdated, h]
    | count => exact meterUpdate_count _ _ _ _ h
    | period => exact meterUpdate_period _ _ _ _ h

end Meters

/-! ### Words: tell-tales (R89, R114) -/

theorem handTellTale_eq (d : Nat) (v : Int) (s : State) :
    handTellTale d v s =
      inOpenHour (inDistrict d (fun q =>
        { q with minTellTale := some (q.minTellTale.elim v (fun w => min w v)) })) s := by
  have hlesser : ∀ held : Option Int, lesser held v = some (held.elim v (fun w => min w v)) := by
    intro held
    cases held <;> rfl
  simp only [handTellTale, modOpenHour_eq_inOpenHour, hlesser]
  exact congrArg (inOpenHour · s) (funext fun q => modDistrict_eq_inDistrict _ _ q)

theorem tellTaleUpdate_eq_tellTaleTaken (u : PointUpdate) : tellTaleUpdate u = tellTaleTaken u := by
  funext s d
  obtain ⟨n, kind, value, quality, fromEntry⟩ := u
  unfold tellTaleUpdate tellTaleTaken
  cases s.district d with
  | none => rfl
  | some r =>
    by_cases hn : r.tellTalePoint = some n
    · cases fromEntry with
      | true => cases quality <;> cases value <;> simp [hn, handTellTale_eq]
      | false => cases value <;> simp [hn]
    · cases value <;> simp [hn]

end Sys2Proof.Laws
end

section
/-! SUPPORT. The statements' words about SAMPLE bodies and stale points, each tied to the model's operation. -/

namespace Sys2Proof.Laws

open Sys2Proof Sys2Proof.Machine Sys2Proof.Claims

/-! ### Words: SAMPLE bodies (R3, R9 to R11) -/

theorem sampleWellFormed_eq_sampleFits (body : List Byte) : sampleWellFormed body = sampleFits body := by
  simp only [sampleWellFormed, sampleFits, and_assoc]

theorem octetAt_cons (b : Byte) (l : List Byte) (i : Nat) : octetAt (b :: l) (i + 1) = octetAt l i := by
  simp [octetAt]

theorem field_cons (b : Byte) (l : List Byte) (i k : Nat) : field (b :: l) (i + 1) k = field l i k := rfl

/-- The raw entries of n times four octets are those read at the offsets of each. -/
theorem rawEntries_eq_map (n : Nat) (l : List Byte) (h : l.length = 4 * n) :
    rawEntries l = (List.range n).map (fun i => ⟨octetAt l (4 * i), octetAt l (4 * i + 1), field l (4 * i + 2) 2⟩) := by
  induction n generalizing l with
  | zero =>
    obtain rfl : l = [] := List.length_eq_zero_iff.mp h
    rfl
  | succ n ih =>
    match l, h with
    | c :: q :: x :: y :: rest, h =>
      have hrest : rest.length = 4 * n := by
        simp only [List.length_cons] at h
        omega
      rw [rawEntries, ih rest hrest, List.range_succ_eq_map, List.map_cons, List.map_map]
      refine congrArg₂ List.cons ?_ (List.map_congr_left fun i _ => ?_)
      · simp [octetAt, field, numberOf]
      · simp only [Function.comp, Nat.succ_eq_add_one, Nat.mul_add, Nat.mul_one, Nat.add_right_comm _ 4, octetAt_cons,
          field_cons]

/-- R3: the raw entries of a well-formed body. -/
theorem rawEntries_eq_entriesOf {body : List Byte} (h : sampleFits body = true) :
    rawEntries (body.drop 1) = entriesOf body := by
  simp only [sampleFits, decide_eq_true_eq] at h
  obtain ⟨-, hlen⟩ := h
  cases body with
  | nil =>
    rw [List.length_nil] at hlen
    omega
  | cons b l =>
    rw [List.drop_one, List.tail_cons, rawEntries_eq_map (octetAt (b :: l) 0) l (by simpa [Nat.add_comm] using hlen)]
    refine List.map_congr_left fun i _ => ?_
    rw [show 1 + 4 * i = 4 * i + 1 by omega, show 2 + 4 * i = 4 * i + 1 + 1 by omega,
      show 3 + 4 * i = 4 * i + 2 + 1 by omega, octetAt_cons, octetAt_cons, field_cons]

theorem convertSample_eq_sampleTaken (a : Nat) (body : List Byte) (s : State) :
    convertSample a body s = sampleTaken a body s := by
  unfold convertSample sampleTaken
  rw [sampleWellFormed_eq_sampleFits]
  split
  · rename_i h
    rw [rawEntries_eq_entriesOf h]
  · rfl

/-- R9, R10: the rewriting of one entry and then of the others. -/
theorem entriesRewritten_cons (a : Nat) (s : State) (e : RawEntry) (es : List RawEntry) (w : Rewrite) :
    let v := rewriteEntry a s w e
    v.kept ++ (entriesRewritten a s es v.length).1 = w.kept ++ (entriesRewritten a s (e :: es) w.length).1 ∧
      v.annotated ++ (entriesRewritten a s es v.length).2
        = w.annotated ++ (entriesRewritten a s (e :: es) w.length).2 := by
  rw [entriesRewritten]
  dsimp only [rewriteEntry]
  cases (findPoint a e.channel s).bind s.point with
  | none => simp
  | some p =>
    cases hf : p.forward with
    | pass => simp [hf]
    | suppress => simp [hf]
    | annotate =>
      by_cases hl : w.length + 6 ≤ 58
      · simp [hf, hl, annotatedOctets]
      · simp [hf, hl]

/-- R9, R10: what the rewriting gathers from a list of entries, after what it has gathered so far. -/
theorem foldl_rewriteEntry (a : Nat) (s : State) (es : List RawEntry) (w : Rewrite) :
    (es.foldl (rewriteEntry a s) w).kept = w.kept ++ (entriesRewritten a s es w.length).1 ∧
      (es.foldl (rewriteEntry a s) w).annotated = w.annotated ++ (entriesRewritten a s es w.length).2 := by
  induction es generalizing w with
  | nil => simp [entriesRewritten]
  | cons e es ih =>
    obtain ⟨hk, ha⟩ := entriesRewritten_cons a s e es w
    rw [List.foldl_cons, ← hk, ← ha]
    exact ih _

theorem rewrite_eq_entriesRewritten {a : Nat} {body : List Byte} (s : State) (h : sampleFits body = true) :
    (rewrite a body s).kept = (entriesRewritten a s (entriesOf body) body.length).1 ∧
      (rewrite a body s).annotated = (entriesRewritten a s (entriesOf body) body.length).2 := by
  unfold rewrite
  rw [rawEntries_eq_entriesOf h]
  simpa using foldl_rewriteEntry a s (entriesOf body) ⟨[], [], body.length⟩

theorem officeCopy_eq_officeSample (octets : List Byte) (s : State) : officeCopy octets s = officeSample octets s := by
  unfold officeCopy officeSample
  simp only [sampleWellFormed_eq_sampleFits]
  split
  · rename_i h
    obtain ⟨hk, ha⟩ := rewrite_eq_entriesRewritten (a := sourceOf octets) s h
    simp only [Rewrite.body, hk, ha, List.isEmpty_iff]
    rfl
  · rfl

/-! ### Words: forwarding (R134, R137) -/

theorem fieldEnabled_eq_mayCross (b : Branch) (p : Port) (s : State) :
    fieldEnabled b p s = mayCross b p s.settings.enables := by
  cases b <;> cases p <;> rfl

theorem knownBranch_eq_branchKnown (a : Nat) (s : State) : knownBranch a s = branchKnown a s := rfl

theorem other_port_ne_office (b : Branch) : b.other.port ≠ .o := by
  cases b <;> decide

theorem forwardField_eq_resolved (r : Received) (b : Branch) (urgent : Bool) (rewritten : Option (List Byte))
    (s : State) : forwardField r b urgent rewritten s = resolved r b urgent rewritten s := by
  simp only [forwardField, resolved, resolveField, fieldEnabled_eq_mayCross, knownBranch_eq_branchKnown]
  by_cases h0 : destinationOf r.octets = 0
  · cases rewritten <;> simp [h0]
  · by_cases h240 : destinationOf r.octets = 240
    · simp [h240]
    · by_cases hb : branchKnown (destinationOf r.octets) s = some b
      · simp [h0, h240, hb]
      · simp [h0, h240, hb, other_port_ne_office]

/-! ### Points (R7, R8) -/

theorem addEntry_points (f : EntryForm) (s : State) : (addEntry f s).points = s.points := by
  unfold addEntry
  split <;> rfl

theorem oweReference_points (ref : RecordRef) (s : State) : (oweReference ref s).points = s.points := by
  unfold oweReference
  split
  · rfl
  · exact addEntry_points _ _

theorem oweAlarm_points (key : AlarmKey) (s : State) : (oweAlarm key s).points = s.points := by
  unfold oweAlarm
  split
  · rfl
  · split <;> rfl

theorem writeOutletSet_points (h : Nat) (set : DistrictSet) (s : State) :
    (writeOutletSet h set s).points = s.points := by
  cases h <;> rfl

/-- The yard blocks change no point. -/
theorem Yard.points_eq {s t : State} (h : Yard s t) : t.points = s.points := by
  induction h with
  | trans _ _ ih ih' => rw [ih', ih]
  | full => exact addEntry_points _ _
  | reference => exact oweReference_points _ _
  | alarmEntry => exact oweAlarm_points _ _
  | outlet => exact writeOutletSet_points _ _ _
  | _ => rfl

theorem handUpdate_points (u : PointUpdate) (s : State) : (handUpdate u s).points = s.points :=
  (Yard.handUpdate u (.refl s)).points_eq

theorem raiseAlarm_points (key : AlarmKey) (s : State) : (raiseAlarm key s).points = s.points :=
  (Yard.raiseAlarm key (.refl s)).points_eq

/-- A state with the same points reads the same point. -/
theorem point_congr {s t : State} (h : t.points = s.points) (n : Nat) : t.point n = s.point n := by
  simp only [State.point, h]

theorem point_of_ge (s : State) {n : Nat} (h : 192 ≤ n) : s.point n = none := by
  simp [State.point, tableGet, Nat.not_lt.mpr h]

/-- R8: a point of a station once its station is silent. -/
def staled (a : Nat) (p : Point) : Point :=
  if p.station = a ∧ p.quality ≠ .none then { p with quality := .stale } else p

theorem stalePoints_eq_pointsStale (a : Nat) (s : State) : stalePoints a s = pointsStale a s := rfl

/-- R8: taking one point of a station STALE writes that point alone. -/
theorem stalePoint_point (a k : Nat) (s : State) (n : Nat) :
    (stalePoint a s n).point k = if n = k then (s.point k).map (staled a) else s.point k := by
  unfold stalePoint
  cases hp : s.point n with
  | none =>
    by_cases hk : n = k
    · subst hk
      simp [hp]
    · simp [hk]
  | some p =>
    dsimp only
    split
    · rename_i h
      obtain ⟨hstation, hnone, -⟩ := h
      rw [point_congr (handUpdate_points _ _), putPoint_point]
      have hn : n < 192 := by
        by_contra hge
        simp [point_of_ge s (Nat.not_lt.mp hge)] at hp
      by_cases hk : n = k
      · subst hk
        simp [hn, hp, staled, hstation, hnone]
      · simp [hk]
    · rename_i h
      by_cases hk : n = k
      · subst hk
        have : staled a p = p := by
          unfold staled
          split
          · obtain ⟨_, _, _, _, _, _, _, _, _, _, quality, _⟩ := p
            simp_all
          · rfl
        simp [hp, this]
      · simp [hk]

/-- R8: the first points taken STALE in ascending number. -/
theorem foldl_stalePoint_point (a n k : Nat) (s : State) :
    ((List.range n).foldl (stalePoint a) s).point k = if k < n then (s.point k).map (staled a) else s.point k := by
  induction n with
  | zero => simp
  | succ n ih =>
    rw [List.range_succ, List.foldl_append, List.foldl_cons, List.foldl_nil, stalePoint_point, ih]
    by_cases hk : n = k
    · simp [hk]
    · have : k < n + 1 ↔ k < n := by omega
      simp [hk, this]

theorem pointsStale_point (a k : Nat) (s : State) : (pointsStale a s).point k = (s.point k).map (staled a) := by
  rw [← stalePoints_eq_pointsStale, stalePoints, foldl_stalePoint_point]
  split
  · rfl
  · rename_i h
    simp [point_of_ge s (Nat.not_lt.mp h)]

end Sys2Proof.Laws
end

section
/-! SUPPORT. The statements about SAMPLE, the Point Converter, the Local Converter and the Relay Unit's timers. -/

namespace Sys2Proof.Points

open Sys2Proof Sys2Proof.Machine Sys2Proof.Claims Sys2Proof.Laws

/-! ### SAMPLE (R133) -/

theorem oldestIs_of_taken {p : Port} {kind : Nat} {s u : State} {r : Received} (ht : takeReceived p s = some (r, u))
    (hk : kindOf r.octets = kind) : oldestIs p kind s = true := by
  obtain ⟨x, hx, he⟩ := Option.map_eq_some_iff.mp ht
  obtain ⟨rfl, -⟩ := Prod.mk.inj he
  simp [oldestIs, hx, hk]

/-- The oldest telegram of a field port is passed in the state without it. -/
theorem passField_of_taken {p : Port} {b : Branch} {s u : State} {r : Received} (hb : fieldBranch p = some b)
    (ht : takeReceived p s = some (r, u)) (pass : Received → Branch → State → State) :
    passField p pass s = pass r b u := by
  simp [passField, hb, ht]

theorem passSample_eq (r : Received) (b : Branch) (s : State) :
    passSample r b s =
      let v := sampleTaken (sourceOf r.octets) (bodyOf r.octets) (hear (sourceOf r.octets) b s)
      resolved r b false (officeSample r.octets v) v := by
  simp only [passSample, convertSample_eq_sampleTaken, officeCopy_eq_officeSample, forwardField_eq_resolved]

/-- Settles O14: the oldest SAMPLE of a field port is passed, and its pass is read in the statement's words. -/
theorem sampleIsPassed : Obligations.SampleIsPassed := by
  intro p b s u r hr hb ht hk
  change execSample p s = _
  rw [execSample, arrival_acts hr (oldestIs_of_taken ht hk), passField_of_taken hb ht, passSample_eq]

/-! ### Conversion and hand-overs (R4 to R7) -/

theorem clampRaw_eq_clamped (p : Point) (raw : Nat) : clampRaw p raw = clamped p raw := rfl

theorem convert_eq_engineeringOf (p : Point) (raw : Nat) : convert p raw = engineeringOf p raw := by
  cases h : p.kind <;> simp [convert, engineeringOf, h, levelValue, clampRaw_eq_clamped]

/-- R4: only a LEVEL entry is clamped. -/
theorem isClamped_iff (p : Point) (raw : Nat) : isClamped p raw = true ↔ p.kind = .level ∧ clamped p raw ≠ raw := by
  cases h : p.kind <;> simp [isClamped, h, clampRaw_eq_clamped]

theorem entryQuality_eq_qualityOf (p : Point) (e : RawEntry) :
    entryQuality e.quality (isClamped p e.value) = qualityOf p e := by
  unfold qualityOf
  simp only [← isClamped_iff]
  match e.quality with
  | 0 => cases isClamped p e.value <;> rfl
  | 1 => simp [entryQuality]
  | q + 2 => simp [entryQuality]

/-- R4 to R6: a point after one of its entries. -/
theorem take_eq (p : Point) (e : RawEntry) (now : Option Nat) :
    p.take e now =
      if qualityOf p e = .failed then { p with quality := qualityOf p e, updated := now }
      else { p with
        lastRaw := some e.value, value := some (engineeringOf p e.value), quality := qualityOf p e
        updated := now } := by
  simp only [Point.take, entryQuality_eq_qualityOf, convert_eq_engineeringOf]

theorem take_quality (p : Point) (e : RawEntry) (now : Option Nat) : (p.take e now).quality = qualityOf p e := by
  rw [take_eq]
  split <;> rfl

theorem take_kind (p : Point) (e : RawEntry) (now : Option Nat) : (p.take e now).kind = p.kind := by
  rw [take_eq]
  split <;> rfl

/-- R3: an entry of no configured key is not acted on. -/
theorem takeEntry_of_unknown {source : Nat} {s : State} {e : RawEntry} (h : findPoint source e.channel s = none) :
    takeEntry source s e = s := by
  simp [takeEntry, h]

/-- R3, R7: an entry of a configured key gives its point what it takes, and hands the update on. -/
theorem takeEntry_of_point {source n : Nat} {s : State} {e : RawEntry} {p : Point}
    (hn : findPoint source e.channel s = some n) (hp : s.point n = some p) :
    takeEntry source s e =
      handUpdate ⟨n, p.kind, (p.take e s.timeNow).value, qualityOf p e, true⟩
        (s.putPoint n (some (p.take e s.timeNow))) := by
  simp [takeEntry, hn, hp, Point.update, take_quality, take_kind]

/-- R7, R107: a hand-over acts on the holders, then on the meters, then on the districts. -/
theorem handUpdate_eq (u : PointUpdate) (s : State) :
    handUpdate u s = [1, 2, 3, 4, 5, 6].foldl (tellTaleTaken u) ([1, 2, 3, 4, 5, 6, 7, 8].foldl (meterUpdated u)
      ([1, 2, 3, 4, 5, 6, 7, 8].foldl (holderUpdate u) s)) := by
  rw [handUpdate, schedulerUpdate, accountUpdate, stockUpdate, tellTaleUpdate_eq_tellTaleTaken,
    meterUpdate_eq_meterUpdated]

/-- Settles O20: the entry by its key and its point, the hand-over by the units it acts on. -/
theorem entryConverts : Obligations.EntryConverts := by
  refine ⟨fun source s e => ⟨takeEntry_of_unknown, fun n p hn hp => ?_⟩, handUpdate_eq⟩
  rw [takeEntry_of_point hn hp, take_eq]

/-! ### The Local Converter (R14, R15) -/

theorem scanQuality_eq (c : LocalConverter) : scanQuality c = if c.running = .settling then 1 else 0 := by
  cases h : c.running <;> simp [scanQuality, h]

/-- R15: a local sample, octet by octet. -/
theorem localSample_eq (c : LocalConverter) (codes : Fin 4 → Nat) :
    localSample c [codes 0, codes 1, codes 2, codes 3] =
      frame 0 240 1 (octet 4 :: (List.finRange 4).flatMap (fun i =>
        octet i.val :: octet (if c.running = .settling then 1 else 0)
          :: octetsOf 2 (codes i * (65536 / 2 ^ c.resolution)))) := by
  rw [← scanQuality_eq]
  rfl

/-- R15: a local sample joins the office ROUTINE queue where a general buffer is free. -/
theorem queueLocal_eq (octets : List Byte) (s : State) :
    queueLocal octets s =
      if 0 < s.line.freeGeneral then
        enqueue .o false ⟨⟨.general, none⟩, octets, .plain⟩
          (holdingTest { s with line := { s.line with freeGeneral := s.line.freeGeneral - 1 } })
      else s := by
  by_cases h : 0 < s.line.freeGeneral <;> simp [queueLocal, takeGeneral, mayTakeGeneral, h]

/-- R14, R15: a scan's completion in the statement's words. -/
theorem finishScan_eq (codes : List Nat) (s : State) :
    let sample := localSample s.localConverter codes
    let v := sampleTaken 240 (bodyOf sample)
      { s with localConverter := { s.localConverter with scanning := false } }
    finishScan codes s = (officeSample sample v).elim v (fun octets => queueLocal octets v) := by
  simp only [finishScan, convertSample_eq_sampleTaken, officeCopy_eq_officeSample]
  split <;> rename_i h <;> rw [h] <;> rfl

theorem scanMayComplete_of {codes : Fin 4 → Nat} {s : State} (h : s.localConverter.scanning = true)
    (hc : ∀ i, codes i < 2 ^ s.localConverter.resolution) :
    scanMayComplete [codes 0, codes 1, codes 2, codes 3] s = true := by
  simp [scanMayComplete, h, hc]

/-- Settles O21: each command arises, and acts as its meaning says. -/
theorem localConverterRuns : Obligations.LocalConverterRuns := by
  intro s d hr
  refine ⟨fun h => ?_, fun h => ?_, fun codes hs hc => ?_⟩
  · change execSettleTimerExpiry s = _
    rw [execSettleTimerExpiry, arrival_acts hr (by simp [h, Timer.runs])]
    rfl
  · change execScanTimerExpiry s = _
    rw [execScanTimerExpiry, arrival_acts hr (by simp [h, Timer.runs])]
    rfl
  · change execScanComplete _ _ _ _ s = _
    rw [execScanComplete, arrival_acts hr (scanMayComplete_of hs hc), finishScan_eq, localSample_eq]
    simp only [queueLocal_eq]
    generalize sampleTaken 240 _ _ = v
    generalize officeSample _ v = copy
    cases copy with
    | none => rfl
    | some octets => rfl

/-! ### The Relay Unit's timers (R125, R129) -/

theorem goSilent_eq (a : Nat) (s : State) :
    goSilent a s = pointsStale a (raised .stationSilent a
      (s.modStation a (fun e => { e with waitingTimer := .stopped, liveness := .silent }))) := rfl

/-- R8, R125: each point of a station gone SILENT that is not NONE is STALE, and no other point changes. -/
theorem goSilent_point (a n : Nat) (s : State) : (goSilent a s).point n = (s.point n).map (staled a) := by
  rw [goSilent_eq, pointsStale_point, raised, point_congr (raiseAlarm_points _ _), modStation_point]

/-- Settles O19: the expiry of a timer that runs arises; the points are read off after the fold over them. -/
theorem relayTimersExpire : Obligations.RelayTimersExpire := by
  refine ⟨fun a d s e hr he hw => ⟨?_, fun n => goSilent_point a n s⟩, fun a s e hr he => ?_⟩
  · change execWaitingTimerExpiry a s = _
    rw [execWaitingTimerExpiry, arrival_acts hr (by simp [he, hw, Timer.runs]), goSilent_eq]
  · change execAgingTimerExpiry a s = _
    rw [execAgingTimerExpiry, arrival_acts hr (by simp [he])]

end Sys2Proof.Points
end

section
/-! SUPPORT. The statements about the requests that load points, vapour pressures and the Local Converter. -/

namespace Sys2Proof.Points

open Sys2Proof Sys2Proof.Machine Sys2Proof.Claims Sys2Proof.Laws

/-! ### Requests -/

/-- A request that stands first in reception is answered by what it has performed. -/
theorem request_of_performed {code : Nat} {f : List Byte} {r : Received} {s u v : State} {result : ResultCode}
    {data : List Byte} {perform : List Byte → State → Performed} (h : Requested code f r s u) (hlo : 1 ≤ code)
    (hhi : code ≤ 21) (hp : perform f u = ⟨result, data, v⟩) :
    request code perform s = .next (answered r code result data v) := by
  rw [request_answers hlo hhi h, hp]

/-- R169: a check that fails gives its result. -/
theorem firstFailure_here {b : Bool} {result : ResultCode} {rest : List (Bool × ResultCode)} (h : b = true) :
    firstFailure ((b, result) :: rest) = some result := by
  rw [firstFailure_cons, if_pos h]

/-- R169: a check that does not fail leaves the choice to those after it. -/
theorem firstFailure_next {b : Bool} {result : ResultCode} {rest : List (Bool × ResultCode)} (h : b ≠ true) :
    firstFailure ((b, result) :: rest) = firstFailure rest := by
  rw [firstFailure_cons, if_neg h]

/-! ### Points in service (R16) -/

theorem recordGet_some_le {α : Type} {n k : Nat} {t : Vector (Option α) n} {x : α} (h : recordGet t k = some x) :
    1 ≤ k ∧ k ≤ n := by
  cases k with
  | zero => simp [recordGet] at h
  | succ i =>
    by_contra hk
    have : n ≤ i := by omega
    simp [recordGet, tableGet, this] at h

theorem any_holder_iff (s : State) (q : Holder → Bool) :
    holderNumbers.any (fun h => (s.holder h).any q) = true ↔ ∃ h r, s.holder h = some r ∧ q r = true := by
  simp only [List.any_eq_true, Option.any_eq_true]
  constructor
  · rintro ⟨h, -, r, hr, hq⟩
    exact ⟨h, r, hr, hq⟩
  · rintro ⟨h, r, hr, hq⟩
    have := recordGet_some_le hr
    exact ⟨h, by simp; omega, r, hr, hq⟩

theorem any_district_iff (s : State) (q : District → Bool) :
    districtNumbers.any (fun d => (s.district d).any q) = true ↔ ∃ d r, s.district d = some r ∧ q r = true := by
  simp only [List.any_eq_true, Option.any_eq_true]
  constructor
  · rintro ⟨d, -, r, hr, hq⟩
    exact ⟨d, r, hr, hq⟩
  · rintro ⟨d, r, hr, hq⟩
    have := recordGet_some_le hr
    exact ⟨d, by simp; omega, r, hr, hq⟩

theorem pointInService_iff (n : Nat) (s : State) : pointInService n s = true ↔ inService n s := by
  unfold pointInService inService
  rw [Bool.and_eq_true, Bool.or_eq_true, any_holder_iff, any_district_iff, Option.isSome_iff_ne_none]
  simp [or_assoc]

/-! ### LOAD_POINT (R16) -/

theorem findPoint_some {a c k : Nat} {s : State} (h : findPoint a c s = some k) : ∃ p, s.point k = some p := by
  have := List.find?_some h
  obtain ⟨p, hp, -⟩ := Option.any_eq_true _ _ |>.mp this
  exact ⟨p, hp⟩

/-- R16: the key is held by another point. -/
theorem keyTaken_iff (a c n : Nat) (s : State) :
    (findPoint a c s).any (· != n) = true ↔ ∃ k p, k ≠ n ∧ findPoint a c s = some k ∧ s.point k = some p := by
  constructor
  · intro h
    obtain ⟨k, hk, hne⟩ := Option.any_eq_true _ _ |>.mp h
    obtain ⟨p, hp⟩ := findPoint_some hk
    exact ⟨k, p, by simpa using hne, hk, hp⟩
  · rintro ⟨k, p, hne, hk, -⟩
    simp [hk, hne]

theorem kindOctet_level_iff {v : Nat} {kind : PointKind} (h : pointKindOf v = some kind) :
    v = PointKind.level.code ↔ kind = .level := by
  unfold pointKindOf at h
  split at h <;> cases h <;> decide

theorem handNone_eq_noneHanded (n : Nat) (former : Option Point) (s : State) :
    handNone n former s = noneHanded n former s := by
  cases former <;> rfl

/-- R16: the limits are judged of a LEVEL point alone. -/
theorem badLimits_iff {f : List Byte} {kind : PointKind} (hk : pointKindOf (octetAt f 3) = some kind) :
    badLimits f = true ↔
      kind = .level ∧ (signedField f 9 4 ≤ signedField f 5 4 ∨ field f 15 2 < field f 13 2) := by
  rw [badLimits, decide_eq_true_eq, kindOctet_level_iff hk]

theorem loadPoint_format_iff (f : List Byte) :
    (f.length != 17 || (pointKindOf (octetAt f 3)).isNone || (forwardModeOf (octetAt f 4)).isNone || octetAt f 0 == 255)
        = true ↔
      f.length ≠ 17 ∨ pointKindOf (octetAt f 3) = none ∨ forwardModeOf (octetAt f 4) = none ∨ octetAt f 0 = 255 := by
  simp [or_assoc]

theorem loadPoint_range_iff {f : List Byte} {kind : PointKind} (hk : pointKindOf (octetAt f 3) = some kind) :
    (decide (191 < octetAt f 0) || outside 1 240 (octetAt f 1) || decide (15 < octetAt f 2)
        || (octetAt f 1 == 240 && decide (3 < octetAt f 2)) || badLimits f) = true ↔
      191 < octetAt f 0 ∨ octetAt f 1 < 1 ∨ 240 < octetAt f 1 ∨ 15 < octetAt f 2 ∨ octetAt f 1 = 240 ∧ 3 < octetAt f 2 ∨
        kind = .level ∧ (signedField f 9 4 ≤ signedField f 5 4 ∨ field f 15 2 < field f 13 2) := by
  rw [Bool.or_eq_true, badLimits_iff hk]
  simp [outside, or_assoc]

/-- R2: a point as loaded holds its limits only where it is LEVEL. -/
theorem loadedPoint_eq (f : List Byte) (kind : PointKind) (mode : ForwardMode) :
    loadedPoint f kind mode =
      if kind = .level then
        ⟨octetAt f 1, octetAt f 2, kind, signedField f 5 4, signedField f 9 4, field f 13 2, field f 15 2, mode, none,
          none, .none, none⟩
      else ⟨octetAt f 1, octetAt f 2, kind, 0, 0, 0, 0, mode, none, none, .none, none⟩ := by
  by_cases h : kind = .level <;> simp [loadedPoint, h]

theorem storePoint_eq {f : List Byte} {kind : PointKind} {mode : ForwardMode} (s : State)
    (hk : pointKindOf (octetAt f 3) = some kind) (hm : forwardModeOf (octetAt f 4) = some mode) :
    storePoint f s =
      noneHanded (octetAt f 0) (s.point (octetAt f 0)) (s.putPoint (octetAt f 0) (some (loadedPoint f kind mode))) := by
  simp only [storePoint, hk, hm, handNone_eq_noneHanded]

/-- Settles O36: the first of the four checks that fails, or the point stored. -/
theorem loadPointActs : Obligations.LoadPointActs := by
  intro f r s u h
  have answer : ∀ {result : ResultCode} {v : State}, loadPoint f u = ⟨result, [], v⟩ →
      exec .loadPoint s = .next (answered r 4 result [] v) := request_of_performed h (by decide) (by decide)
  refine ⟨fun hbad => answer (judge_fails (firstFailure_here ((loadPoint_format_iff f).mpr hbad)) _ _), ?_⟩
  intro kind mode hlen hn hk hm
  have hformat := mt (loadPoint_format_iff f).mp (by simp [hlen, hk, hm, hn])
  have hrange := loadPoint_range_iff hk
  have hkey := keyTaken_iff (octetAt f 1) (octetAt f 2) (octetAt f 0) u
  have hservice := pointInService_iff (octetAt f 0) u
  refine ⟨fun hw => answer (judge_fails ?_ _ _), fun hw ht => answer (judge_fails ?_ _ _),
    fun hw ht hi => answer (judge_fails ?_ _ _), fun hw ht hi => answer ?_⟩
  · exact (firstFailure_next hformat).trans (firstFailure_here (hrange.mpr hw))
  · exact (firstFailure_next hformat).trans ((firstFailure_next (mt hrange.mp hw)).trans
      (firstFailure_here (hkey.mpr ht)))
  · exact (firstFailure_next hformat).trans ((firstFailure_next (mt hrange.mp hw)).trans
      ((firstFailure_next (mt hkey.mp ht)).trans (firstFailure_here (hservice.mpr hi))))
  · rw [← loadedPoint_eq, ← storePoint_eq u hk hm]
    exact judge_accepts ((firstFailure_next hformat).trans ((firstFailure_next (mt hrange.mp hw)).trans
      ((firstFailure_next (mt hkey.mp ht)).trans (firstFailure_next (mt hservice.mp hi))))) _ _

/-! ### DROP_POINT (R17) -/

theorem dropPoint_format_iff (f : List Byte) :
    (f.length != 1 || octetAt f 0 == 255) = true ↔ f.length ≠ 1 ∨ octetAt f 0 = 255 := by
  simp

theorem emptyPoint_of_held {n : Nat} {s : State} {p : Point} (hp : s.point n = some p) :
    emptyPoint n s = handUpdate ⟨n, p.kind, none, .none, false⟩ (s.putPoint n none) := by
  simp [emptyPoint, handNone, hp]

/-- Settles O37: the first of the four checks that fails, or the entry emptied. -/
theorem dropPointActs : Obligations.DropPointActs := by
  intro f r s u h
  have answer : ∀ {result : ResultCode} {v : State}, dropPoint f u = ⟨result, [], v⟩ →
      exec .dropPoint s = .next (answered r 5 result [] v) := request_of_performed h (by decide) (by decide)
  refine ⟨fun hbad => answer (judge_fails (firstFailure_here ((dropPoint_format_iff f).mpr hbad)) _ _), ?_⟩
  intro hlen hn
  have hformat := mt (dropPoint_format_iff f).mp (by simp [hlen, hn])
  have hrange : octetAt f 0 ≤ 191 → decide (191 < octetAt f 0) ≠ true := fun hle => by simp [hle]
  have hservice := pointInService_iff (octetAt f 0) u
  refine ⟨fun hw => answer (judge_fails ?_ _ _), fun hle he => answer (judge_fails ?_ _ _),
    fun p hle hp => ⟨fun hi => answer (judge_fails ?_ _ _), fun hi => answer ?_⟩⟩
  · exact (firstFailure_next hformat).trans (firstFailure_here (decide_eq_true hw))
  · exact (firstFailure_next hformat).trans ((firstFailure_next (hrange hle)).trans
      (firstFailure_here (by rw [he]; rfl)))
  · exact (firstFailure_next hformat).trans ((firstFailure_next (hrange hle)).trans
      ((firstFailure_next (by simp [hp])).trans (firstFailure_here (hservice.mpr hi))))
  · rw [← emptyPoint_of_held hp]
    exact judge_accepts ((firstFailure_next hformat).trans ((firstFailure_next (hrange hle)).trans
      ((firstFailure_next (by simp [hp])).trans (firstFailure_next (mt hservice.mp hi))))) _ _

/-! ### LOAD_VAPOUR (R18) -/

theorem tableSet_getElem? {α : Type} {n : Nat} (t : Vector (Option α) n) (i j : Nat) (x : Option α) :
    (tableSet t i x)[j]? = if i = j ∧ i < n then some x else t[j]? := by
  unfold tableSet
  rw [Vector.getElem?_setIfInBounds]
  by_cases hij : i = j
  · subst hij
    by_cases hi : i < n <;> simp [hi]
  · simp [hij]

/-- Consecutive entries written, read back one by one; the others stay. -/
theorem foldl_tableSet_getElem? {n : Nat} (ps : List Nat) (first : Nat) (t : Vector (Option Nat) n) (i : Nat)
    (hi : i < n) :
    ((ps.zipIdx first).foldl (fun v p => tableSet v p.2 (some p.1)) t)[i]? =
      if first ≤ i ∧ i < first + ps.length then some ps[i - first]? else t[i]? := by
  induction ps generalizing first t with
  | nil =>
    have : ¬ (first ≤ i ∧ i < first) := by omega
    simp [this]
  | cons p ps ih =>
    rw [List.zipIdx_cons, List.foldl_cons, ih, tableSet_getElem?, List.length_cons]
    rcases Nat.lt_trichotomy i first with hlt | rfl | hgt
    · rw [if_neg (by omega), if_neg (by omega), if_neg (by omega)]
    · rw [if_neg (by omega), if_pos ⟨rfl, hi⟩, if_pos (by omega), Nat.sub_self, List.getElem?_cons_zero]
    · obtain ⟨k, rfl⟩ := Nat.exists_eq_add_of_lt hgt
      have hk : first + k + 1 - first = k + 1 := by omega
      have hk' : first + k + 1 - (first + 1) = k := by omega
      rw [hk, hk', List.getElem?_cons_succ, if_neg (c := first = _ ∧ _) (by omega)]
      exact if_congr (by omega) rfl rfl

theorem pressuresOf_getElem? (f : List Byte) {count i : Nat} (h : i < count) :
    (pressuresOf f count)[i]? = some (field f (2 + 2 * i) 2) := by
  simp [pressuresOf, h]

theorem pressuresOf_length (f : List Byte) (count : Nat) : (pressuresOf f count).length = count := by
  simp [pressuresOf]

/-- R18: an entry of the filled table. -/
theorem fillVapour_getElem? (f : List Byte) (first count i : Nat) (s : State) (hi : i < 41) :
    (fillVapour first (pressuresOf f count) s).vapour[i]? =
      if first ≤ i ∧ i < first + count then some (some (field f (2 + 2 * (i - first)) 2)) else s.vapour[i]? := by
  simp only [fillVapour]
  rw [foldl_tableSet_getElem? _ _ _ _ hi, pressuresOf_length]
  split
  · rename_i h
    rw [pressuresOf_getElem? f (by omega)]
  · rfl

/-- R12, note 1: at a whole degree the lookup reads that degree's entry alone. -/
theorem vapourLookup_whole (i : Nat) (hi : i < 41) (s : State) : vapourLookup (100 * i) s = vapourEntry s i := by
  have ht : lookupTemperature (100 * i) = 100 * i := by
    unfold lookupTemperature
    omega
  simp [vapourLookup, ht]

theorem vapourEntry_of_filled {s : State} {i p : Nat} (h : s.vapour[i]? = some (some p)) :
    vapourEntry s i = (p, false) := by
  simp [vapourEntry, tableGet, h]

/-- R18: a whole degree that LOAD-VAPOUR names reads the value carried. -/
theorem vapourLookup_fillVapour (f : List Byte) {first count i : Nat} (s : State) (hi : i < 41) (hf : first ≤ i)
    (hc : i < first + count) :
    vapourLookup (100 * i) (fillVapour first (pressuresOf f count) s) = (field f (2 + 2 * (i - first)) 2, false) := by
  rw [vapourLookup_whole i hi]
  exact vapourEntry_of_filled (by rw [fillVapour_getElem? f _ _ _ _ hi, if_pos ⟨hf, hc⟩])

/-- R18: the fields that make LOAD-VAPOUR OUT-OF-RANGE. -/
theorem loadVapour_range_iff (f : List Byte) (first count : Nat) :
    (outside 1 27 count || decide (40 < first) || decide (41 < first + count)
      || (pressuresOf f count).any (fun p => decide (10000 < p))) = true ↔
    count < 1 ∨ 27 < count ∨ 40 < first ∨ 41 < first + count ∨ ∃ i, i < count ∧ 10000 < field f (2 + 2 * i) 2 := by
  simp [outside, pressuresOf, or_assoc]

/-- Settles O38: the first failing check, or the entries filled and then looked up. -/
theorem loadVapourActs : Obligations.LoadVapourActs := by
  intro f r s u h
  have answer : ∀ {result : ResultCode} {v : State}, loadVapour f u = ⟨result, [], v⟩ →
      exec .loadVapour s = .next (answered r 6 result [] v) := request_of_performed h (by decide) (by decide)
  have hrange := loadVapour_range_iff f (octetAt f 0) (octetAt f 1)
  have hformat : f.length = 2 + 2 * octetAt f 1 → (f.length != 2 + 2 * octetAt f 1) ≠ true :=
    fun hlen => by simp [hlen]
  refine ⟨fun hlen => answer ?_, fun hlen hw => answer ?_, fun hlen hw =>
    ⟨(fillVapour (octetAt f 0) (pressuresOf f (octetAt f 1)) u).vapour, answer ?_, fun i hi =>
      ⟨fillVapour_getElem? f _ _ _ _ hi, fun hf hc => vapourLookup_fillVapour f u hi hf hc⟩⟩⟩
  · exact judge_fails (firstFailure_here (bne_iff_ne.mpr hlen)) _ _
  · exact judge_fails ((firstFailure_next (hformat hlen)).trans (firstFailure_here (hrange.mpr hw))) _ _
  · exact judge_accepts ((firstFailure_next (hformat hlen)).trans (firstFailure_next (mt hrange.mp hw))) _ _

/-! ### LOAD_LOCAL (R19) -/

theorem boolOf_isNone_iff (v : Nat) : (boolOf v).isNone = true ↔ 1 < v := by
  unfold boolOf
  split <;> simp_all
  omega

theorem loadLocal_format_iff (f : List Byte) :
    (f.length != 3 || (boolOf (octetAt f 0)).isNone) = true ↔ f.length ≠ 3 ∨ 1 < octetAt f 0 := by
  rw [Bool.or_eq_true, boolOf_isNone_iff, bne_iff_ne]

theorem loadLocal_range_iff (resolution period : Nat) :
    (!([8, 10, 12].contains resolution) || outside 1 60 period) = true ↔
      resolution ∉ [8, 10, 12] ∨ period < 1 ∨ 60 < period := by
  simp [outside]

/-- R14, R19: enable on stores the settings and performs the enabling sequence. -/
theorem setLocal_on (resolution period : Nat) (s : State) :
    setLocal true resolution period s =
      { s with localConverter := { s.localConverter with
          enabled := true, resolution := resolution, scanPeriod := period, running := .settling
          settleTimer := .running 2, scanTimer := .running period, scanning := false } } := rfl

/-- R19: enable off stores the settings of a converter that does not run. -/
theorem setLocal_off_disabled (resolution period : Nat) {s : State} (h : s.localConverter.running = .disabled) :
    setLocal false resolution period s =
      { s with localConverter := { s.localConverter with
          enabled := false, resolution := resolution, scanPeriod := period } } := by
  simp [setLocal, h]

/-- R8, R19: enable off stops a running converter, and its points become STALE. -/
theorem setLocal_off_running (resolution period : Nat) {s : State} (h : s.localConverter.running ≠ .disabled) :
    setLocal false resolution period s =
      pointsStale 240 { s with localConverter := { s.localConverter with
        enabled := false, resolution := resolution, scanPeriod := period, running := .disabled, settleTimer := .stopped
        scanTimer := .stopped, scanning := false } } := by
  cases hr : s.localConverter.running with
  | disabled => exact absurd hr h
  | settling => simp only [setLocal, hr, stalePoints_eq_pointsStale]; rfl
  | ready => simp only [setLocal, hr, stalePoints_eq_pointsStale]; rfl

/-- Settles O39: the first failing check, or the settings stored, by the enable carried and the state before. -/
theorem loadLocalActs : Obligations.LoadLocalActs := by
  intro f r s u h
  have answer : ∀ {result : ResultCode} {v : State}, loadLocal f u = ⟨result, [], v⟩ →
      exec .loadLocal s = .next (answered r 7 result [] v) := request_of_performed h (by decide) (by decide)
  have hformat := loadLocal_format_iff f
  have hrange := loadLocal_range_iff (octetAt f 1) (octetAt f 2)
  have accepted : ¬ (f.length ≠ 3 ∨ 1 < octetAt f 0) →
      ¬ (octetAt f 1 ∉ [8, 10, 12] ∨ octetAt f 2 < 1 ∨ 60 < octetAt f 2) →
      loadLocal f u = ⟨.accepted, [], setLocal (octetAt f 0 == 1) (octetAt f 1) (octetAt f 2) u⟩ := fun hf hw =>
    judge_accepts ((firstFailure_next (mt hformat.mp hf)).trans (firstFailure_next (mt hrange.mp hw))) _ _
  dsimp only
  split_ifs with hf hw hon hr
  · exact answer (judge_fails (firstFailure_here (hformat.mpr hf)) _ _)
  · exact answer (judge_fails ((firstFailure_next (mt hformat.mp hf)).trans (firstFailure_here (hrange.mpr hw))) _ _)
  · exact answer ((accepted hf hw).trans (by rw [hon, BEq.rfl, setLocal_on]))
  · have hoff : (octetAt f 0 == 1) = false := beq_false_of_ne hon
    exact answer ((accepted hf hw).trans (by rw [hoff, setLocal_off_disabled _ _ hr]))
  · have hoff : (octetAt f 0 == 1) = false := beq_false_of_ne hon
    exact answer ((accepted hf hw).trans (by rw [hoff, setLocal_off_running _ _ hr]))

end Sys2Proof.Points
end

section
/-! SUPPORT. Which parts of the state the alarms, the reports, the orders and the Pressure Scheduler write. -/

namespace Sys2Proof.Laws

open Sys2Proof.Machine

/-! ### Alarm List and Report Backlog (R163 to R166) -/

/-- Nothing but the Alarm List and the Report Backlog has changed. -/
def RecordsOnly (s t : State) : Prop :=
  t = { s with
    alarms := t.alarms, alarmOverflow := t.alarmOverflow, backlog := t.backlog, backlogOverflow := t.backlogOverflow }

namespace RecordsOnly

variable {s t u : State}

theorem refl (s : State) : RecordsOnly s s := rfl

theorem trans (h : RecordsOnly s t) (k : RecordsOnly t u) : RecordsOnly s u := by
  unfold RecordsOnly at *
  rw [k, h]

theorem holder (h : RecordsOnly s t) (k : Nat) : t.holder k = s.holder k := (congrArg (State.holder · k) h :)
theorem routing (h : RecordsOnly s t) (k : Nat) : t.routing k = s.routing k := (congrArg (State.routing · k) h :)
theorem district (h : RecordsOnly s t) (d : Nat) : t.district d = s.district d := (congrArg (State.district · d) h :)
theorem station (h : RecordsOnly s t) (a : Nat) : t.station a = s.station a := (congrArg (State.station · a) h :)

theorem addEntry (f : EntryForm) (s : State) : RecordsOnly s (addEntry f s) := by
  unfold Machine.addEntry
  split <;> rfl

theorem oweFull (r : FullReport) (s : State) : RecordsOnly s (oweFull r s) := addEntry _ s

theorem oweReference (ref : RecordRef) (s : State) : RecordsOnly s (oweReference ref s) := by
  unfold Machine.oweReference
  split
  · rfl
  · exact addEntry _ s

theorem oweAlarmIfEnabled (key : AlarmKey) (s : State) : RecordsOnly s (oweAlarmIfEnabled key s) := by
  unfold Machine.oweAlarmIfEnabled oweAlarm
  split_ifs <;> rfl

theorem raiseAlarm (key : AlarmKey) (s : State) : RecordsOnly s (raiseAlarm key s) := by
  unfold Machine.raiseAlarm
  split
  · exact trans (by rfl) (oweAlarmIfEnabled key _)
  · split
    · exact trans (by rfl) (oweAlarmIfEnabled key _)
    · split
      · exact trans (by rfl) (oweAlarmIfEnabled key _)
      · rfl

theorem dropAlarm (r : Alarm) (b : Bool) (s : State) : RecordsOnly s (dropAlarm r b s) := by
  unfold Machine.dropAlarm
  split
  · rfl
  · exact trans (by rfl) (oweFull _ _)

theorem settleAlarmOverflow (s : State) : RecordsOnly s (settleAlarmOverflow s) := by
  unfold Machine.settleAlarmOverflow
  split <;> rfl

theorem clearAlarm (key : AlarmKey) (s : State) : RecordsOnly s (clearAlarm key s) := by
  unfold Machine.clearAlarm
  split
  · rfl
  · split
    · rfl
    · split
      · exact (dropAlarm _ _ _).trans (settleAlarmOverflow _)
      · exact trans (by rfl) (oweAlarmIfEnabled key _)

theorem supersede (cause : SupersessionCause) (s : State) (o : Order) : RecordsOnly s (supersede cause s o) := by
  unfold Machine.supersede
  split
  · exact oweFull _ s
  · rfl

theorem foldl {α : Type} {f : State → α → State} (hf : ∀ (s : State) (x : α), RecordsOnly s (f s x)) (l : List α)
    (s : State) : RecordsOnly s (l.foldl f s) := by
  induction l generalizing s with
  | nil => exact refl s
  | cons x l ih => exact (hf s x).trans (ih _)

end RecordsOnly

/-! ### Orders and districts (R64, R92 to R97) -/

/-- Nothing has changed in the holders, the Routing Records and the other parts of the state that neither the Order Unit
nor the Pressure Scheduler writes. -/
def SupplyOnly (s t : State) : Prop :=
  t = { s with
    alarms := t.alarms, alarmOverflow := t.alarmOverflow, backlog := t.backlog, backlogOverflow := t.backlogOverflow
    directory := t.directory, claims := t.claims, serial := t.serial, districts := t.districts
    currentBook := t.currentBook }

namespace SupplyOnly

variable {s t u : State}

theorem refl (s : State) : SupplyOnly s s := rfl

theorem trans (h : SupplyOnly s t) (k : SupplyOnly t u) : SupplyOnly s u := by
  unfold SupplyOnly at *
  rw [k, h]

theorem holders (h : SupplyOnly s t) : t.holders = s.holders := (congrArg State.holders h :)
theorem holder (h : SupplyOnly s t) (k : Nat) : t.holder k = s.holder k := (congrArg (State.holder · k) h :)
theorem routing (h : SupplyOnly s t) (k : Nat) : t.routing k = s.routing k := (congrArg (State.routing · k) h :)

theorem records (h : RecordsOnly s t) : SupplyOnly s t := by
  unfold RecordsOnly at h
  rw [h]
  rfl

theorem foldl {α : Type} {f : State → α → State} (hf : ∀ (s : State) (x : α), SupplyOnly s (f s x)) (l : List α)
    (s : State) : SupplyOnly s (l.foldl f s) := by
  induction l generalizing s with
  | nil => exact refl s
  | cons x l ih => exact (hf s x).trans (ih _)

theorem serve (a : Nat) (s : State) : SupplyOnly s (serve a s) := rfl

theorem makeRoom (l : List Order) (s : State) : SupplyOnly s (makeRoom l s).2 := by
  unfold Machine.makeRoom
  split
  · rfl
  · split
    · exact records (.oweFull _ s)
    · rfl

theorem placeSet (a d v : Nat) (s : State) : SupplyOnly s (placeSet a d v s) := by
  have superseded : ∀ l : List Order, SupplyOnly s (l.foldl (supersede .governor) (nextSerial s)) := fun l =>
    trans (by rfl) (records (.foldl (RecordsOnly.supersede .governor) l _))
  unfold Machine.placeSet
  split
  · rfl
  · dsimp only
    split
    · exact (superseded _).trans (by rfl)
    · exact (superseded _).trans ((makeRoom _ _).trans (by rfl))

theorem issueSet (d v : Nat) (s : State) : SupplyOnly s (issueSet d v s) := by
  unfold Machine.issueSet
  split
  · rfl
  · split
    · unfold setFailed
      have raised := records (RecordsOnly.raiseAlarm (alarmKey .orderFailed d) s)
      dsimp only [if_true]
      split
      · exact raised
      · split
        · exact raised.trans (by rfl)
        · exact raised
    · exact placeSet _ _ _ _

theorem sendDecision (d : Nat) (s : State) : SupplyOnly s (sendDecision d s) := by
  unfold Machine.sendDecision
  split
  · rfl
  · split
    · rfl
    · split
      · exact issueSet _ _ _
      · rfl

theorem writeActive (d v : Nat) (s : State) : SupplyOnly s (writeActive d v s) := by
  unfold Machine.writeActive
  split
  · rfl
  · split <;> rfl

theorem supplyStateChanged (d : Nat) (supplied : Bool) (s : State) :
    SupplyOnly s (supplyStateChanged d supplied s) := by
  refine trans (t := if supplied then clearAlarm (alarmKey .districtUnsupplied d) s
    else raiseAlarm (alarmKey .districtUnsupplied d) s) ?_ (records (.oweReference _ _))
  cases supplied
  · exact records (.raiseAlarm _ _)
  · exact records (.clearAlarm _ _)

theorem clampActive (d : Nat) (s : State) : SupplyOnly s (clampActive d s) := by
  unfold Machine.clampActive
  split
  · rfl
  · rename_i r _
    split
    · rfl
    · split
      · dsimp only
        refine (writeActive d r.supplyLimit s).trans (trans ?_ (sendDecision d _))
        split
        · exact records (.raiseAlarm _ _)
        · rfl
      · rfl

theorem recomputeDistrict (s : State) (d : Nat) : SupplyOnly s (recomputeDistrict s d) := by
  unfold Machine.recomputeDistrict
  split
  · rfl
  · rename_i r hr
    dsimp only
    split
    · rfl
    · refine trans (t := s.putDistrict d { r with
        supplyLimit := (supplyOf d r.drop s).1, supplied := (supplyOf d r.drop s).2 }) (by rfl)
        (trans ?_ (clampActive _ _))
      split
      · rfl
      · exact supplyStateChanged _ _ _

theorem recomputeSupply (s : State) : SupplyOnly s (recomputeSupply s) := foldl recomputeDistrict _ s

theorem placeClose (a v : Nat) (cause : SupersessionCause) (s : State) : SupplyOnly s (placeClose a v cause s) := by
  unfold Machine.placeClose
  split
  · rfl
  · refine trans (t := nextSerial s) (by rfl) ?_
    dsimp only
    split
    · exact (records (.foldl (RecordsOnly.supersede cause) _ _)).trans (by rfl)
    · rfl

theorem abandonOpen (a : Nat) (cause : SupersessionCause) (s : State) : SupplyOnly s (abandonOpen a cause s).2 := by
  unfold Machine.abandonOpen
  split
  · rfl
  · split
    · exact trans (t := emptySlot a s) (by rfl) (records (.oweFull _ _))
    · rfl

theorem removeOpens (a : Nat) (cause : SupersessionCause) (s : State) : SupplyOnly s (removeOpens a cause s) := by
  unfold Machine.removeOpens
  split
  · rfl
  · exact trans (by rfl) (records (.foldl (fun s o => .oweFull _ s) _ _))

theorem withdrawOpens (a : Nat) (cause : SupersessionCause) (s : State) :
    SupplyOnly s (withdrawOpens a cause s).2 :=
  (abandonOpen a cause s).trans (removeOpens a cause _)

theorem withdrawFromNewStation (a : Nat) (s : State) : SupplyOnly s (withdrawFromNewStation a s) :=
  (withdrawOpens a .out s).trans (by rfl)

end SupplyOnly

/-! ### Valve Interlock Unit (R45, R51 to R57) -/

theorem writeOutletSet_holders (h : Nat) (set : DistrictSet) (s : State) :
    (writeOutletSet h set s).holders = s.holders := by
  cases h <;> rfl

theorem handOutletSet_holders (h : Nat) (set : DistrictSet) (s : State) :
    (handOutletSet h set s).holders = s.holders :=
  (SupplyOnly.recomputeSupply _).holders.trans (writeOutletSet_holders h set s)

theorem formOutletSet_holders (h : Nat) (s : State) : (formOutletSet h s).holders = s.holders := by
  unfold formOutletSet
  split
  · rfl
  · dsimp only
    split
    · rfl
    · exact handOutletSet_holders _ _ _

theorem setSequence_holders (h : Nat) (l : List Closure) (i : Option Nat) (s : State) :
    (setSequence h l i s).holders = s.holders := by
  unfold setSequence
  split <;> rfl

theorem closeOutcome_holders (h v : Nat) (success : Bool) (s : State) :
    (closeOutcome h v success s).holders = s.holders := by
  unfold closeOutcome
  split
  · rfl
  · split
    · rfl
    · exact (SupplyOnly.records (.raiseAlarm _ _)).holders.trans (formOutletSet_holders _ _)

theorem handFront_holders (h a : Nat) (l : List Closure) (s : State) : (handFront h a l s).holders = s.holders := by
  induction l generalizing s with
  | nil => exact setSequence_holders _ _ _ _
  | cons c rest ih =>
    unfold handFront
    split
    · rfl
    · split
      · exact ih s
      · split
        · rw [ih, closeOutcome_holders, setSequence_holders]
        · rw [(SupplyOnly.placeClose _ _ _ _).holders, setSequence_holders]

theorem handOver_holders (h : Nat) (s : State) : (handOver h s).holders = s.holders := by
  unfold handOver
  split
  · split
    · rfl
    · exact handFront_holders _ _ _ _
  · rfl

theorem addClosures_holders (h : Nat) (cause : SupersessionCause) (v : Option Nat) (s : State) :
    (addClosures h cause v s).holders = s.holders := by
  unfold addClosures
  split <;> rfl

/-- R51: a cause changes no Holder Record. -/
theorem interlockCause_holders (h : Nat) (cause : SupersessionCause) (s : State) :
    (interlockCause h cause s).holders = s.holders := by
  unfold interlockCause
  split
  · rfl
  · dsimp only
    rw [(SupplyOnly.serve _ _).holders]
    split
    · rw [addClosures_holders, (SupplyOnly.withdrawOpens _ _ _).holders]
    · rw [handOver_holders, addClosures_holders, (SupplyOnly.withdrawOpens _ _ _).holders]

theorem interlockCause_holder (h k : Nat) (cause : SupersessionCause) (s : State) :
    (interlockCause h cause s).holder k = s.holder k :=
  congrArg (recordGet · k) (interlockCause_holders h cause s)

end Sys2Proof.Laws
end

section
/-! SUPPORT. The statements' words about orders, districts and supply, each tied to the model's operation of the same
meaning. -/

namespace Sys2Proof.Laws

open Sys2Proof Sys2Proof.Machine Sys2Proof.Claims

/-! ### Words: an order's slot and list (R63, R64) -/

theorem serve_eq_headTaken (a : Nat) (s : State) : serve a s = headTaken a s := by
  refine congrArg (s.modStation a) (funext fun e => ?_)
  obtain ⟨_, _, _, _, _, _, _, _, _, _, slot, list⟩ := e
  cases slot <;> cases list <;> rfl

theorem fromOffice_iff (o : Order) : o.fromOffice = true ↔ o.origin = .office := beq_iff_eq

theorem supersede_eq (cause : SupersessionCause) (s : State) (o : Order) :
    supersede cause s o = if o.origin = .office then supersededOwed cause o s else s := by
  simp only [supersede, fromOffice_iff]
  rfl

/-- The first order satisfying a test, and the list less that order. -/
theorem removeFirst_eq (p : Order → Bool) (l : List Order) :
    removeFirst p l = (l.find? p).map (fun o => (o, l.erase o)) := by
  induction l with
  | nil => rfl
  | cons q l ih =>
    cases hq : p q with
    | true => simp [removeFirst, hq]
    | false =>
      rw [removeFirst, ih, List.find?_cons_of_neg (by simp [hq])]
      cases ho : l.find? p with
      | none => simp [hq]
      | some o =>
        have : q ≠ o := by
          rintro rfl
          simp [List.find?_some ho] at hq
        simp [hq, List.erase_cons_tail, this]

theorem makeRoom_eq_roomMade (l : List Order) (s : State) : makeRoom l s = roomMade l s := by
  unfold makeRoom roomMade
  rw [removeFirst_eq]
  refine if_congr Iff.rfl rfl ?_
  change _ = match l.find? Order.fromOffice with
    | some o => (l.erase o, supersededOwed .governor o s)
    | none => (l.drop 1, s)
  cases l.find? Order.fromOffice <;> rfl

theorem replaceSets_placed (o : Order) (l : List Order) :
    replaceSets o l true = l.filter (fun q => !q.isSet) := by
  induction l with
  | nil => rfl
  | cons q l ih => cases hq : q.isSet <;> simp [replaceSets, hq, ih]

/-- R64: the new SET takes the place of the first SET, the others being removed. -/
theorem replaceSets_eq (o : Order) (l : List Order) (h : l.any Order.isSet = true) :
    let ahead := l.takeWhile (fun q => !q.isSet)
    replaceSets o l false = ahead ++ o :: (l.drop ahead.length).filter (fun q => !q.isSet) := by
  induction l with
  | nil => cases h
  | cons q l ih =>
    cases hq : q.isSet with
    | true => simp [replaceSets, hq, replaceSets_placed]
    | false => simpa [replaceSets, hq] using ih (by simpa [hq] using h)

theorem placeSet_eq_setPlaced (a d v : Nat) (s : State) : placeSet a d v s = setPlaced a d v s := by
  unfold placeSet setPlaced
  cases s.station a with
  | none => rfl
  | some e =>
    have superseded : supersede .governor = fun t q => if q.origin = .office then supersededOwed .governor q t else t :=
      funext fun t => funext fun q => supersede_eq _ t q
    simp only [serve_eq_headTaken, makeRoom_eq_roomMade, superseded]
    by_cases h : e.pendingList.any (fun q => q.code == some 3) = true
    · have hset : e.pendingList.any Order.isSet = true := h
      rw [replaceSets_eq _ _ hset, if_pos hset, if_pos h]
      rfl
    · have hset : ¬ e.pendingList.any Order.isSet = true := h
      rw [if_neg hset, if_neg h]
      rfl

/-! ### Words: supply, clamp and send decision (R92 to R97) -/

theorem writeActive_eq_activeWritten (d v : Nat) (s : State) : writeActive d v s = activeWritten d v s := by
  have widen : DistrictHour.widen v = widened v := by
    funext q
    obtain ⟨_, _, _, _, minActive, maxActive, _⟩ := q
    cases minActive <;> cases maxActive <;> rfl
  unfold writeActive activeWritten
  cases s.district d with
  | none => rfl
  | some r => simp only [handActive, modOpenHour_eq_inOpenHour, funext (modDistrict_eq_inDistrict d _), widen]

theorem sendIsCalledFor_eq_sendCalledFor (r : District) (v : Nat) : sendIsCalledFor r v = sendCalledFor r v := by
  unfold sendIsCalledFor sendCalledFor
  cases r.lastSent <;> rfl

/-- R65: the failure of a SET for a governor station that is not configured. -/
theorem setFailed_eq {d : Nat} {s : State} {r : District} (h : s.district d = some r) :
    setFailed true d r.governor s = (raised .orderFailed d s).putDistrict d { r with setFailed := true } := by
  have hr : (raiseAlarm (alarmKey .orderFailed d) s).district d = some r :=
    ((RecordsOnly.raiseAlarm _ s).district d).trans h
  simp only [setFailed, if_true, hr]
  rfl

theorem sendDecision_eq_sendDecided (d : Nat) (s : State) : sendDecision d s = sendDecided d s := by
  unfold sendDecision sendDecided
  cases h : s.district d with
  | none => rfl
  | some r =>
    cases hv : r.active with
    | none => simp only [hv]
    | some v =>
      simp only [hv, sendIsCalledFor_eq_sendCalledFor, issueSet, h, setFailed_eq h, placeSet_eq_setPlaced]
      cases sendCalledFor r v <;> cases s.station r.governor <;> simp

/-- R94: the pressures of the holders that supply a district, each less the drop. -/
theorem supplyOf_eq_supplyFrom (d drop : Nat) (s : State) : supplyOf d drop s = supplyFrom d drop s := by
  have numbers : holderNumbers = (List.range 8).map (· + 1) := rfl
  have contributes : ∀ i, contribution d drop (i + 1) s
      = ((s.holder (i + 1)).bind (fun r =>
          if r.inReckoning = true ∧ r.condition ≠ .landed ∧ ((s.outletSets[i]?).any (·.has d)) = true then r.pressure
          else none)).map (· - drop) := by
    intro i
    unfold contribution
    cases s.holder (i + 1) with
    | none => rfl
    | some r =>
      dsimp only [Option.bind_some]
      split_ifs <;> rfl
  unfold supplyOf supplyFrom
  simp only [numbers, List.filterMap_map, Function.comp_def, contributes, ← List.map_filterMap, List.isEmpty_map]

theorem supplyStateChanged_eq (d : Nat) (supplied : Bool) (s : State) :
    supplyStateChanged d supplied s =
      oweReference (.district d)
        (if supplied then cleared .districtUnsupplied d s else raised .districtUnsupplied d s) :=
  rfl

theorem supplyStateChanged_district (d k : Nat) (supplied : Bool) (s : State) :
    (supplyStateChanged d supplied s).district k = s.district k := by
  rw [supplyStateChanged_eq, (RecordsOnly.oweReference _ _).district]
  cases supplied
  · exact (RecordsOnly.raiseAlarm _ s).district k
  · exact (RecordsOnly.clearAlarm _ s).district k

/-- R96: the clamp of a district's active setpoint. -/
theorem clampActive_eq {d : Nat} {s : State} {r : District} (h : s.district d = some r) :
    clampActive d s =
      if r.mode = .auto ∧ r.active.any (fun v => decide (r.supplyLimit < v)) then
        let t := activeWritten d r.supplyLimit s
        sendDecided d (if r.supplyLimit < r.minimum ∧ r.supplied = true then raised .districtShort d t else t)
      else s := by
  unfold clampActive
  simp only [h, writeActive_eq_activeWritten, sendDecision_eq_sendDecided]
  cases r.active with
  | none => simp
  | some v => simp [raised, alarmKey]

theorem putDistrict_self {d : Nat} {s : State} {r : District} (x : District) (h : s.district d = some r) :
    (s.putDistrict d x).district d = some x := by
  have := Points.recordGet_some_le h
  simp [putDistrict_district, this]

theorem recomputeDistrict_eq_districtRecomputed (s : State) (d : Nat) :
    recomputeDistrict s d = districtRecomputed s d := by
  unfold recomputeDistrict districtRecomputed
  cases h : s.district d with
  | none => rfl
  | some r =>
    simp only [supplyOf_eq_supplyFrom, Prod.ext_iff]
    refine if_congr Iff.rfl rfl ?_
    rw [clampActive_eq (r := { r with
      supplyLimit := (supplyFrom d r.drop s).1, supplied := (supplyFrom d r.drop s).2 })]
    · rfl
    · split
      · exact putDistrict_self _ h
      · rw [supplyStateChanged_district]
        exact putDistrict_self _ h

theorem recomputeSupply_eq_supplyRecomputed (s : State) : recomputeSupply s = supplyRecomputed s :=
  congrArg (fun f => districtNumbers.foldl f s) (funext₂ recomputeDistrict_eq_districtRecomputed)

end Sys2Proof.Laws
end

section
/-! SUPPORT. The statements' words about confirmed states, closure sequences and causes, each tied to the model's
operation of the same meaning. -/

namespace Sys2Proof.Laws

open Sys2Proof Sys2Proof.Machine Sys2Proof.Claims

/-! ### Routing Records -/

/-- A record written twice under one number is the later one. -/
theorem recordSet_recordSet {α : Type} {n : Nat} (t : Vector (Option α) n) (k : Nat) (x y : Option α) :
    recordSet (recordSet t k x) k y = recordSet t k y := by
  cases k with
  | zero => rfl
  | succ i =>
    ext j hj
    simp only [recordSet, tableSet, Vector.getElem_setIfInBounds]
    split <;> rfl

theorem putRouting_putRouting (s : State) (h : Nat) (x y : Routing) :
    (s.putRouting h x).putRouting h y = s.putRouting h y :=
  congrArg (fun v => { s with routings := v }) (recordSet_recordSet _ _ _ _)

theorem putRouting_of_number {h : Nat} (hlo : 1 ≤ h) (hhi : h ≤ 8) (x : Routing) (s : State) :
    (s.putRouting h x).routing h = some x := by
  simp [putRouting_routing, hlo, hhi]

theorem putRouting_self {h : Nat} {s : State} {q : Routing} (x : Routing) (hq : s.routing h = some q) :
    (s.putRouting h x).routing h = some x :=
  have hnumber := Points.recordGet_some_le hq
  putRouting_of_number hnumber.1 hnumber.2 x s

/-! ### Words: confirmed states (R45, R57) -/

theorem outletSetOf_eq (states : Vector ValveState 7) :
    outletSetOf states = Vector.ofFn (fun i : Fin 6 => states[i.val + 1] == .opened) := by
  ext i hi
  have : i + 1 < 7 := by omega
  simp [outletSetOf, this, beq_eq_decide]

/-- R45: the outlet set of a holder, which has a number from 1, written. -/
theorem writeOutletSet_eq {h : Nat} (hh : 1 ≤ h) (set : DistrictSet) (s : State) :
    writeOutletSet h set s = { s with outletSets := s.outletSets.setIfInBounds (h - 1) set } := by
  cases h with
  | zero => cases hh
  | succ i => rfl

/-- R45: the outlet set handed over to the Pressure Scheduler. -/
theorem handOutletSet_eq {h : Nat} (hh : 1 ≤ h) (set : DistrictSet) (s : State) :
    handOutletSet h set s = supplyRecomputed { s with outletSets := s.outletSets.setIfInBounds (h - 1) set } := by
  rw [handOutletSet, recomputeSupply_eq_supplyRecomputed, writeOutletSet_eq hh]

/-- R45: the outlet set formed of confirmed states just written. -/
theorem formOutletSet_putRouting {h : Nat} {s : State} {q : Routing} (states : Vector ValveState 7)
    (hq : s.routing h = some q) :
    formOutletSet h (s.putRouting h { q with confirmed := states }) = confirmedWritten h states s := by
  have hh := (Points.recordGet_some_le hq).1
  unfold formOutletSet confirmedWritten
  simp only [putRouting_self _ hq, hq, ← outletSetOf_eq]
  split
  · rename_i hset
    rw [hset]
  · rw [handOutletSet_eq hh, putRouting_putRouting]

theorem closeOutcome_eq_closeJudged (h v : Nat) (success : Bool) (s : State) :
    closeOutcome h v success s = closeJudged h v success s := by
  unfold closeOutcome closeJudged
  cases hq : s.routing h with
  | none => cases success <;> rfl
  | some q =>
    cases success with
    | true => rfl
    | false => exact congrArg (raiseAlarm _) (formOutletSet_putRouting _ hq)

/-! ### Words: the closure sequence (R54 to R56) -/

theorem placeClose_eq_closePlaced (a v : Nat) (cause : SupersessionCause) (s : State) :
    placeClose a v cause s = closePlaced a v cause s := by
  unfold placeClose closePlaced
  cases s.station a with
  | none => rfl
  | some e =>
    by_cases hl : e.pendingList.length < 4
    · have hroom : ¬ 4 ≤ e.pendingList.length := Nat.not_le.mpr hl
      simp only [Config.pendingOrders, hl, hroom, decide_false, if_true, Bool.false_eq_true, if_false]
      rfl
    · have hfull : 4 ≤ e.pendingList.length := Nat.not_lt.mp hl
      simp only [Config.pendingOrders, hl, hfull, decide_true, if_true, if_false]
      cases e.pendingList.getLast? with
      | none => rfl
      | some p =>
        simp only [Option.toList_some, List.foldl_cons, List.foldl_nil, supersede_eq]
        rfl

theorem setSequence_of_routing {h : Nat} {s : State} {q : Routing} (hq : s.routing h = some q) (l : List Closure)
    (i : Option Nat) : setSequence h l i s = s.putRouting h { q with sequence := l, inHand := i } := by
  simp [setSequence, hq]

theorem handFront_eq_frontHanded (h a : Nat) (l : List Closure) (s : State) :
    handFront h a l s = frontHanded h a l s := by
  induction l generalizing s with
  | nil => rfl
  | cons c rest ih =>
    unfold handFront frontHanded
    cases hq : s.routing h with
    | none => rfl
    | some q =>
      simp only [Bool.and_eq_true, Bool.not_eq_true', ih, setSequence_of_routing hq, closeOutcome_eq_closeJudged,
        placeClose_eq_closePlaced]
      refine if_congr Iff.rfl rfl ?_
      cases s.station a <;> simp [valveReadsClosed]

theorem handOver_eq_sequenceHanded (h : Nat) (s : State) : handOver h s = sequenceHanded h s := by
  unfold handOver sequenceHanded
  cases s.holder h with
  | none => rfl
  | some r =>
    cases s.routing h with
    | none => rfl
    | some q => cases hi : q.inHand <;> simp [hi, handFront_eq_frontHanded]

theorem insertClosure_eq (c : Closure) (l : List Closure) :
    insertClosure c l =
      l.takeWhile (fun d => decide (d.valve ≤ c.valve)) ++ c :: l.dropWhile (fun d => decide (d.valve ≤ c.valve)) := by
  induction l with
  | nil => rfl
  | cons d rest ih =>
    by_cases hc : d.valve ≤ c.valve
    · simp [insertClosure, hc, ih, Nat.not_lt.mpr hc]
    · simp [insertClosure, hc, Nat.not_le.mp hc]

theorem addClosure_eq (inHand : Option Nat) (c : Closure) (l : List Closure) :
    addClosure inHand.isSome c l =
      let kept := if inHand = none then 0 else 1
      l.take kept ++ insertClosure c (l.drop kept) := by
  cases inHand <;> cases l <;> rfl

theorem addValve_eq_valveAdded (cause : SupersessionCause) (abandoned : Option Nat) (q : Routing) (v : Nat) :
    addValve cause abandoned q v = valveAdded cause abandoned q v := by
  have forces : ∀ (b : Bool) (c : Closure),
      (if c.valve == v && b then { c with forced := true } else c)
        = { c with forced := c.forced || (c.valve == v && b) } := by
    intro b c
    cases c.valve == v && b <;> simp
  unfold addValve valveAdded
  simp only [forces, addClosure_eq, insertClosure_eq, List.append_assoc]
  exact if_congr Iff.rfl rfl (if_congr (by simp [valveReadsClosed]) rfl rfl)

/-! ### Words: causes (R51 to R53) -/

theorem withdraws_iff (cause : SupersessionCause) (v : Nat) :
    withdraws cause v = true ↔ v ≤ 6 ∧ v ∈ withdrawnValves cause := by
  cases cause <;> simp [withdraws, withdrawnValves] <;> omega

theorem closedValves_eq_closes (cause : SupersessionCause) : closedValves cause = closes cause := by
  cases cause <;> rfl

/-- R43, R61: the valve of an order of three octets with a code. -/
theorem valveOrder_eq (code : Nat) (o : Order) :
    o.valveOrder code =
      if o.body.length = 3 ∧ octetAt o.body 0 = code ∧ field o.body 1 2 ≤ 6 then some (field o.body 1 2) else none := by
  unfold Order.valveOrder Order.code Order.operand orderCode operandOf
  by_cases hl : o.body.length = 3
  · have hcode : o.body.head?.map (·.toNat) = some (octetAt o.body 0) := by
      cases hb : o.body with
      | nil => simp [hb] at hl
      | cons b l => simp [octetAt]
    rw [hcode]
    by_cases hc : octetAt o.body 0 = code
    · by_cases hv : field o.body 1 2 ≤ 6 <;> simp [hl, hc, hv, Option.filter]
    · simp [hc]
  · simp [hl]

/-- R47, R52, R53: an order is an OPEN that a cause withdraws exactly where the statement's word gives it a valve. -/
theorem opensOneOf_eq (cause : SupersessionCause) (o : Order) :
    o.opensOneOf (withdrawnValves cause) = (opensWithdrawn cause o).isSome := by
  rw [Bool.eq_iff_iff]
  unfold Order.opensOneOf opensWithdrawn
  simp only [valveOrder_eq, Bool.and_eq_true, fromOffice_iff, withdraws_iff]
  by_cases hv : o.body.length = 3 ∧ octetAt o.body 0 = codeOpen ∧ field o.body 1 2 ≤ 6
  · simp [hv]
  · simp only [if_neg hv, Option.any_none, Option.isSome_ite]
    tauto

theorem valveOrder_of_withdrawn {cause : SupersessionCause} {o : Order}
    (h : o.opensOneOf (withdrawnValves cause) = true) : o.valveOrder codeOpen = opensWithdrawn cause o := by
  rw [opensOneOf_eq] at h
  obtain ⟨v, hv⟩ := Option.isSome_iff_exists.mp h
  rw [hv]
  unfold opensWithdrawn at hv
  split at hv
  · rename_i hw
    obtain ⟨-, hl, hc, hw⟩ := hw
    rw [valveOrder_eq, if_pos ⟨hl, hc, ((withdraws_iff _ _).mp hw).1⟩]
    exact hv
  · cases hv

/-- R52: the abandoned valve. -/
theorem abandonOpen_valve (a : Nat) (cause : SupersessionCause) (s : State) :
    (abandonOpen a cause s).1 = ((s.station a).bind (fun e => e.slot.order?)).bind (opensWithdrawn cause) := by
  unfold abandonOpen
  cases (s.station a).bind (fun e => e.slot.order?) with
  | none => rfl
  | some o =>
    dsimp only [Option.bind_some]
    split
    · rename_i h
      exact valveOrder_of_withdrawn h
    · rename_i h
      rw [opensOneOf_eq] at h
      exact (Option.not_isSome_iff_eq_none.mp h).symm

/-- R52: the outstanding OPEN abandoned. -/
theorem abandonOpen_state {a : Nat} {s : State} {e : Station} (cause : SupersessionCause) (he : s.station a = some e) :
    (abandonOpen a cause s).2 =
      match e.slot.order? with
      | some o => if (opensWithdrawn cause o).isSome then supersededOwed cause o (slotEmptied a s) else s
      | none => s := by
  simp only [abandonOpen, he, Option.bind_some, opensOneOf_eq]
  cases e.slot.order? with
  | none => rfl
  | some o =>
    dsimp only
    split <;> rfl

/-- R52: an abandoned OPEN leaves the station's pending list. -/
theorem abandonOpen_list {a : Nat} {s : State} {e : Station} (cause : SupersessionCause) (he : s.station a = some e) :
    ∃ x, (abandonOpen a cause s).2.station a = some x ∧ x.pendingList = e.pendingList := by
  have emptied : (emptySlot a s).station a = some { e with slot := .empty } := by
    have haddress : (e.address == a) = true := List.find?_some (p := fun x : Station => x.address == a) he
    have hread := modStation_station s a a (fun st => { st with slot := .empty }) (fun _ => rfl)
    rw [he, Option.map_some, if_pos haddress] at hread
    exact hread
  unfold abandonOpen
  simp only [he, Option.bind_some]
  cases e.slot.order? with
  | none => exact ⟨e, he, rfl⟩
  | some o =>
    dsimp only
    split
    · exact ⟨_, ((RecordsOnly.oweFull _ _).station a).trans emptied, rfl⟩
    · exact ⟨e, he, rfl⟩

theorem removeOpens_of_station {a : Nat} {s : State} {x : Station} (cause : SupersessionCause)
    (hx : s.station a = some x) :
    removeOpens a cause s =
      (x.pendingList.filter (fun o => (opensWithdrawn cause o).isSome)).foldl (fun t o => supersededOwed cause o t)
        (s.modStation a (fun y =>
          { y with pendingList := x.pendingList.filter (fun o => (opensWithdrawn cause o).isNone) })) := by
  have named : Order.opensOneOf (withdrawnValves cause) = fun o => (opensWithdrawn cause o).isSome :=
    funext (opensOneOf_eq cause)
  simp only [removeOpens, hx, named, Option.not_isSome]
  rfl

theorem withdrawOpens_eq_withdrawn (a : Nat) (cause : SupersessionCause) (s : State) :
    (withdrawOpens a cause s).2 = withdrawn a cause s := by
  unfold withdrawOpens withdrawn
  cases he : s.station a with
  | none => simp [abandonOpen, removeOpens, he]
  | some e =>
    obtain ⟨x, hx, hlist⟩ := abandonOpen_list cause he
    have hremoved := removeOpens_of_station cause hx
    rw [hlist, abandonOpen_state cause he] at hremoved
    exact (congrArg (removeOpens a cause) (abandonOpen_state cause he)).trans hremoved

/-- R51 to R56: a cause in the statement's words. -/
theorem interlockCause_eq_causeTaken (h : Nat) (cause : SupersessionCause) (s : State) :
    interlockCause h cause s = causeTaken h cause s := by
  unfold interlockCause causeTaken
  cases s.holder h with
  | none => rfl
  | some r =>
    have hvalve : (withdrawOpens r.valveStation cause s).1 = _ := abandonOpen_valve r.valveStation cause s
    cases hq : (withdrawn r.valveStation cause s).routing h <;>
      simp only [serve_eq_headTaken, hvalve, withdrawOpens_eq_withdrawn, addClosures, hq, handOver_eq_sequenceHanded,
        closedValves_eq_closes, List.isEmpty_iff, funext₂ (addValve_eq_valveAdded cause _)]

/-- R42, R59: the OUT withdrawal at a new valve station. -/
theorem withdrawFromNewStation_eq_stationTaken (a : Nat) (s : State) :
    withdrawFromNewStation a s = stationTaken a s := by
  rw [withdrawFromNewStation, withdrawOpens_eq_withdrawn, serve_eq_headTaken]
  rfl

end Sys2Proof.Laws
end

section
/-! SUPPORT. The statements' words about reckoning, each tied to the model's operation of the same meaning. -/

namespace Sys2Proof.Laws

open Sys2Proof Sys2Proof.Machine Sys2Proof.Claims

/-! ### Holder Records -/

theorem putHolder_of_number {h : Nat} (hlo : 1 ≤ h) (hhi : h ≤ 8) (x : Holder) (s : State) :
    (s.putHolder h x).holder h = some x := by
  simp [putHolder_holder, hlo, hhi]

theorem putHolder_self {h : Nat} {s : State} {r : Holder} (x : Holder) (hr : s.holder h = some r) :
    (s.putHolder h x).holder h = some x :=
  have hnumber := Points.recordGet_some_le hr
  putHolder_of_number hnumber.1 hnumber.2 x s

/-! ### Words: yard stock (R32) -/

theorem sum_filterMap {α : Type} (f : α → Option Nat) (l : List α) :
    (l.filterMap f).sum = (l.map (fun x => (f x).getD 0)).sum := by
  induction l with
  | nil => rfl
  | cons x l ih => cases hx : f x <;> simp [hx, ih]

/-- A table of numbered records, read number by number. -/
theorem toList_eq_map_recordGet {α : Type} {n : Nat} (t : Vector (Option α) n) :
    t.toList = (List.range n).map (fun i => recordGet t (i + 1)) := by
  refine List.ext_getElem (by simp) fun i hi _ => ?_
  have : i < n := by simpa using hi
  simp [recordGet, tableGet, this]

theorem formYardStock_eq_yardFormed (s : State) : formYardStock s = yardFormed s := by
  unfold formYardStock yardFormed
  rw [sum_filterMap, toList_eq_map_recordGet, List.map_map]
  refine congrArg (fun l : List Nat => { s with yardStock := l.sum }) (List.map_congr_left fun i _ => ?_)
  change ((s.holder (i + 1)).bind _).getD 0 = _
  cases s.holder (i + 1) with
  | none => rfl
  | some r => cases hr : r.inReckoning <;> simp [hr]

/-! ### Words: stage and volume (R21, R25, R26) -/

/-- R25: the last of n stages whose pickup rise is not above h, or the first stage. -/
def lastReached (lift : Nat → Lift) (n h : Nat) : Nat :=
  (((List.range n).map (· + 1)).filter (fun k => (lift k).pickup ≤ h)).getLast?.getD 1

theorem stageAt_eq_lastReached (r : Holder) (h : Nat) :
    stageAt r h = lastReached (liftAt r) (min r.stageCount 4) h := rfl

theorem lastReached_succ (lift : Nat → Lift) (n h : Nat) :
    lastReached lift (n + 1) h = if (lift (n + 1)).pickup ≤ h then n + 1 else lastReached lift n h := by
  unfold lastReached
  by_cases hp : (lift (n + 1)).pickup ≤ h <;> simp [List.range_succ, hp]

/-- R25: with pickup rises increasing, every stage up to the one reached has been picked up, and the next has not. -/
theorem lastReached_spec {lift : Nat → Lift} {n : Nat} (h : Nat)
    (hrise : ∀ i j, 1 ≤ i → i < j → j ≤ n → (lift i).pickup < (lift j).pickup) (hn : 1 ≤ n) :
    (1 ≤ lastReached lift n h ∧ lastReached lift n h ≤ n) ∧
      (∀ j, 2 ≤ j → j ≤ lastReached lift n h → (lift j).pickup ≤ h) ∧
      (lastReached lift n h < n → h < (lift (lastReached lift n h + 1)).pickup) := by
  induction n, hn using Nat.le_induction with
  | base =>
    have hone : lastReached lift 1 h = 1 := by
      rw [lastReached_succ]
      split <;> rfl
    rw [hone]
    exact ⟨⟨le_rfl, le_rfl⟩, fun j hj hj' => by omega, fun hlt => by omega⟩
  | succ n hn ih =>
    obtain ⟨⟨hlo, hhi⟩, hbelow, habove⟩ := ih fun i j hi hij hj => hrise i j hi hij (by omega)
    rw [lastReached_succ]
    split
    · rename_i hp
      refine ⟨⟨by omega, le_rfl⟩, fun j hj hjn => ?_, fun hlt => by omega⟩
      rcases Nat.lt_or_eq_of_le hjn with hlt | rfl
      · exact (hrise j (n + 1) (by omega) hlt le_rfl).le.trans hp
      · exact hp
    · rename_i hp
      refine ⟨⟨hlo, by omega⟩, hbelow, fun _ => ?_⟩
      rcases Nat.lt_or_eq_of_le hhi with hlt | heq
      · exact habove hlt
      · rw [heq]
        exact Nat.not_le.mp hp

/-- R21: the entries of a table without gaps, stage by stage. -/
theorem liftList_eq {r : Holder} (h : ∀ l ∈ r.lifts.toList.take r.stageCount, l ≠ none) :
    r.liftList = (List.range (min r.stageCount 4)).map (fun i => some (liftAt r (i + 1))) := by
  refine List.ext_getElem (by simp [Holder.liftList]) fun i hi _ => ?_
  have hmem := h _ (List.getElem_mem hi)
  have hi4 : i < 4 := by
    simp only [Holder.liftList, List.length_take, Vector.length_toList] at hi
    omega
  have hread : r.liftList[i] = r.lifts[i] := by simp [Holder.liftList]
  obtain ⟨l, hl⟩ := Option.ne_none_iff_exists'.mp hmem
  have hl' : r.lifts[i] = some l := hread.symm.trans hl
  simp [hread, hl', liftAt, hi4]

/-- R21: the pickup rises of a complete table increase. -/
theorem pickups_rise {r : Holder} (h : tableComplete r) (i j : Nat) (hi : 1 ≤ i) (hij : i < j)
    (hj : j ≤ min r.stageCount 4) : (liftAt r i).pickup < (liftAt r j).pickup := by
  obtain ⟨-, hfull, hrise⟩ := h
  have hlist : r.lifts.toList.take r.stageCount = _ := liftList_eq hfull
  rw [hlist, List.filterMap_map, List.pairwise_filterMap] at hrise
  have hpair := List.pairwise_iff_getElem.mp hrise (i - 1) (j - 1) (by simp; omega) (by simp; omega) (by omega)
  simpa [Nat.sub_add_cancel hi, Nat.sub_add_cancel (hi.trans hij.le)] using hpair

/-- The scan of a list of entries, the last entry considered last. -/
theorem stageOf_go_append (h : Nat) (l : List (Option Lift)) (x : Lift) (k best : Nat) :
    stageOf.go h (l ++ [some x]) k best = if x.pickup ≤ h then k + l.length else stageOf.go h l k best := by
  induction l generalizing k best with
  | nil => rfl
  | cons y l ih =>
    have hlen : k + 1 + l.length = k + (y :: l).length := by
      rw [List.length_cons]
      omega
    cases y <;> exact (ih _ _).trans (by rw [hlen]; rfl)

theorem stageOf_eq_lastReached (lift : Nat → Lift) (n h : Nat) :
    stageOf ((List.range n).map (fun i => some (lift (i + 1)))) h = lastReached lift n h := by
  induction n with
  | zero => rfl
  | succ n ih =>
    rw [lastReached_succ, ← ih, List.range_succ, List.map_append, stageOf, stageOf]
    refine (stageOf_go_append _ _ _ _ _).trans (if_congr Iff.rfl ?_ rfl)
    simp [Nat.add_comm]

theorem stageOf_eq_stageAt {r : Holder} (hc : tableComplete r) (h : Nat) : stageOf r.liftList h = stageAt r h := by
  rw [liftList_eq hc.2.1, stageOf_eq_lastReached, stageAt_eq_lastReached]

/-- R26: the spans of the stages below the K-th (counting from 0), then the span of that stage. -/
theorem spanSum_eq (lift : Nat → Lift) (h : Nat) {n K : Nat} (hK : K < n)
    (hbelow : ∀ j, 1 ≤ j → j ≤ K → (lift j).pickup ≤ h) (habove : K + 1 < n → h < (lift (K + 1)).pickup) :
    spanSum ((List.range n).map lift) h =
      ((List.range K).map (fun i => (lift i).area * ((lift (i + 1)).pickup - (lift i).pickup))).sum
        + (lift K).area * (h - (lift K).pickup) := by
  induction K generalizing n lift with
  | zero =>
    match n, hK with
    | 1, _ => simp [spanSum]
    | n + 2, _ =>
      have : ¬ (lift 1).pickup ≤ h := Nat.not_le.mpr (habove (by omega))
      simp [List.range_succ_eq_map, spanSum, this]
  | succ K ih =>
    match n, hK with
    | n + 2, hK =>
      have hnext := ih (fun i => lift (i + 1)) (n := n + 1) (by omega)
        (fun j hj hjK => hbelow (j + 1) (by omega) (by omega))
        (fun hlt => habove (by omega))
      have htail : (List.range (n + 2)).map lift = lift 0 :: (List.range (n + 1)).map (fun i => lift (i + 1)) := by
        rw [List.range_succ_eq_map, List.map_cons, List.map_map]
        rfl
      have hhead : spanSum ((List.range (n + 2)).map lift) h
          = (lift 0).area * ((lift 1).pickup - (lift 0).pickup)
            + spanSum ((List.range (n + 1)).map (fun i => lift (i + 1))) h := by
        rw [htail, List.range_succ_eq_map, List.map_cons, spanSum, if_pos (hbelow 1 le_rfl (by omega))]
      rw [hhead, hnext, List.range_succ_eq_map (n := K), List.map_cons, List.sum_cons, List.map_map, Nat.add_assoc]
      rfl

theorem actualVolume_eq_volumeAt {r : Holder} (hc : tableComplete r) (h : Nat) : actualVolume r h = volumeAt r h := by
  have hn : 1 ≤ min r.stageCount 4 := by
    have := hc.1
    omega
  obtain ⟨⟨hlo, hhi⟩, hbelow, habove⟩ := lastReached_spec h (pickups_rise hc) hn
  rw [← stageAt_eq_lastReached] at hlo hhi hbelow habove
  have hk : stageAt r h - 1 + 1 = stageAt r h := Nat.sub_add_cancel hlo
  have hspan := spanSum_eq (fun i => liftAt r (i + 1)) h (n := min r.stageCount 4) (K := stageAt r h - 1) (by omega)
    (fun j _ hjK => hbelow (j + 1) (by omega) (by omega)) (fun hlt => by rw [hk]; exact habove (by omega))
  have hentries : r.liftList.filterMap id = (List.range (min r.stageCount 4)).map (fun i => liftAt r (i + 1)) := by
    rw [liftList_eq hc.2.1, List.filterMap_map, ← List.filterMap_eq_map]
    rfl
  unfold actualVolume volumeAt
  rw [hentries, hspan, hk]
  rfl

/-! ### Words: pressure, record and condition (R27 to R33) -/

theorem formPressure_eq_pressureAt (r : Holder) (stage : Option Nat) (s : State) :
    formPressure r stage s = pressureAt r stage s := by
  cases stage with
  | none => rfl
  | some k =>
    have hlift : r.lift k = if k = 0 then none else (r.lifts[k - 1]?).join := by cases k <;> rfl
    simp only [formPressure, pressureAt, valueWithin, hlift]
    cases r.pressurePoint.bind s.point with
    | none => rfl
    | some p =>
      obtain ⟨_, _, _, _, _, _, _, _, _, value, quality, _⟩ := p
      cases quality with
      | good =>
        cases value with
        | none => rfl
        | some v => by_cases hv : 0 ≤ v ∧ v ≤ 10000 <;> simp [Option.filter, hv]
      | none | suspect | failed | stale => rfl

theorem reckoned_eq_recordReckoned {r : Holder} (hc : tableComplete r) (g : Int) (s : State) :
    reckoned r g s = recordReckoned r g s := by
  simp only [reckoned, recordReckoned, stageOf_eq_stageAt hc, actualVolume_eq_volumeAt hc, formPressure_eq_pressureAt,
    holderTemperature, resolve_eq, goodValue_eq_valueWithin, riseClamped, aboveTop, clampRise, Bool.or_eq_true,
    decide_eq_true_eq, Option.isNone_iff_eq_none, or_assoc]

theorem conditionAfter_eq_conditionBy (r : Holder) (h : Nat) : conditionAfter r h = conditionBy r h := by
  have within : ∀ mark : Nat, mark ≤ h + r.hysteresis ↔ (h : Int) ≥ mark - r.hysteresis := fun mark => by omega
  simp only [conditionAfter, conditionBy, within, ge_iff_le]

/-! ### Words: conditions and blindness (R34 to R37) -/

theorem raiseCondition_eq (h : Nat) (c : Condition) (s : State) : raiseCondition h c s = conditionRaised h c s := by
  cases c <;> rfl

theorem clearCondition_eq (h : Nat) (c : Condition) (s : State) : clearCondition h c s = conditionCleared h c s := by
  cases c <;> rfl

theorem conditionChange_eq_conditionTaken (h : Nat) (c : Condition) (s : State) :
    conditionChange h c s = conditionTaken h c s := by
  unfold conditionChange conditionTaken
  cases s.holder h with
  | none => rfl
  | some r =>
    simp only [raiseCondition_eq, clearCondition_eq, recomputeSupply_eq_supplyRecomputed, interlockCause_eq_causeTaken]
    cases c <;> rfl

theorem handStockPartial_eq_partialFlagged (s : State) : handStockPartial s = partialFlagged s := by
  have flags : Hour.flagAll { HourFlags.clear with stockPartial := true }
      = inFlags (fun q => { q with stockPartial := true }) := by
    funext r
    simp [Hour.flagAll, inFlags, HourFlags.union, HourFlags.clear]
  rw [handStockPartial, flags]
  rfl

theorem becomeBlind_eq_blindTaken (h : Nat) (s : State) : becomeBlind h s = blindTaken h s := by
  unfold becomeBlind blindTaken
  cases s.holder h with
  | none => rfl
  | some r =>
    simp only [handStockPartial_eq_partialFlagged, interlockCause_eq_causeTaken]
    rfl

theorem endBlindness_of_holder {h : Nat} {s : State} {q : Holder} (hq : s.holder h = some q) :
    endBlindness h s =
      oweReference (.holder h) (cleared .holderBlind h (s.putHolder h { q with blind := false })) := by
  simp only [endBlindness, hq]
  rfl

theorem overTopChange_eq (h : Nat) (before after : Bool) (s : State) :
    overTopChange h before after s =
      if after = before then s else if after then raised .overTop h s else cleared .overTop h s := by
  cases before <;> cases after <;> rfl

/-! ### What a reckoning leaves in its record (R31, R33) -/

theorem overTopChange_holder (h k : Nat) (before after : Bool) (s : State) :
    (overTopChange h before after s).holder k = s.holder k := by
  unfold overTopChange
  split_ifs
  · rfl
  · exact (RecordsOnly.raiseAlarm _ s).holder k
  · exact (RecordsOnly.clearAlarm _ s).holder k

theorem endBlindness_holder {h : Nat} {s : State} {q : Holder} (hq : s.holder h = some q) :
    (endBlindness h s).holder h = some { q with blind := false } := by
  rw [endBlindness_of_holder hq, (RecordsOnly.oweReference _ _).holder, cleared, (RecordsOnly.clearAlarm _ _).holder]
  exact putHolder_self _ hq

theorem raiseCondition_holder (h k : Nat) (c : Condition) (s : State) :
    (raiseCondition h c s).holder k = s.holder k := by
  unfold raiseCondition
  split
  · rfl
  · exact (RecordsOnly.raiseAlarm _ s).holder k

theorem clearCondition_holder (h k : Nat) (c : Condition) (s : State) :
    (clearCondition h c s).holder k = s.holder k := by
  unfold clearCondition
  split
  · rfl
  · exact (RecordsOnly.clearAlarm _ s).holder k

/-- R34: a change of condition leaves the condition in the record, whatever the cause it is does. -/
theorem conditionChange_holder {h : Nat} {s : State} {r : Holder} (c : Condition) (hr : s.holder h = some r) :
    (conditionChange h c s).holder h = some { r with condition := c } := by
  have written : (oweHolderState h ((raiseCondition h c (clearCondition h r.condition s)).putHolder h
      { r with condition := c })).holder h = some { r with condition := c } := by
    rw [oweHolderState, (RecordsOnly.oweReference _ _).holder]
    exact putHolder_self (r := r) _ (by rw [raiseCondition_holder, clearCondition_holder, hr])
  unfold conditionChange
  simp only [hr]
  split
  · rw [(SupplyOnly.recomputeSupply _).holder]
    cases conditionCause c with
    | none => exact written
    | some cause => exact (interlockCause_holder _ _ _ _).trans written
  · cases conditionCause c with
    | none => exact written
    | some cause => exact (interlockCause_holder _ _ _ _).trans written

/-! ### A reckoning (R31) -/

/-- The record and the alarm of the over-top mark as a reckoning has written them, before blindness ends. -/
def reckonedFields (k : Nat) (g : Int) (r : Holder) (s : State) : State :=
  overTopChange k r.overTop (reckoned r g s).overTop (formYardStock (s.putHolder k (reckoned r g s)))

theorem reckonedFields_holder {k : Nat} {s : State} {r : Holder} (g : Int) (hr : s.holder k = some r) :
    (reckonedFields k g r s).holder k = some (reckoned r g s) := by
  rw [reckonedFields, overTopChange_holder]
  exact putHolder_self _ hr

theorem reckon_of_holder {k : Nat} {s : State} {r : Holder} (g : Int) (hr : s.holder k = some r) :
    reckon k g s =
      let after := conditionAfter r (clampRise g r.topRise)
      let t := if r.blind then endBlindness k (reckonedFields k g r s) else reckonedFields k g r s
      let t := if after = r.condition then t else conditionChange k after t
      if (reckoned r g s).stage = r.stage ∧ (reckoned r g s).pressure = r.pressure then t else recomputeSupply t := by
  simp only [reckon, hr]
  rfl

/-- R33: the condition that a reckoning leaves in the record. -/
theorem reckon_condition {k : Nat} {s : State} {r : Holder} (g : Int) (hr : s.holder k = some r) :
    ∃ q, (reckon k g s).holder k = some q ∧ q.condition = conditionAfter r (clampRise g r.topRise) := by
  have hfields := reckonedFields_holder g hr
  obtain ⟨x, hx, hcondition⟩ : ∃ x, (if r.blind then endBlindness k (reckonedFields k g r s)
      else reckonedFields k g r s).holder k = some x ∧ x.condition = r.condition := by
    split
    · exact ⟨_, endBlindness_holder hfields, rfl⟩
    · exact ⟨_, hfields, rfl⟩
  have supplied : ∀ (p : Prop) [Decidable p] (t : State),
      (if p then t else recomputeSupply t).holder k = t.holder k := by
    intro p _ t
    split
    · rfl
    · exact (SupplyOnly.recomputeSupply t).holder k
  rw [reckon_of_holder g hr]
  dsimp only
  rw [supplied]
  split
  · rename_i hsame
    exact ⟨x, hx, hcondition.trans hsame.symm⟩
  · exact ⟨_, conditionChange_holder _ hx, rfl⟩

/-- R31: a reckoning of a holder with a complete lift table, in the statement's words. -/
theorem reckon_eq_reckoningTaken {k : Nat} {s : State} {r : Holder} (g : Int) (hr : s.holder k = some r)
    (hc : tableComplete r) : reckon k g s = reckoningTaken k g s := by
  have hrecord := reckoned_eq_recordReckoned hc g s
  have hfields := reckonedFields_holder g hr
  rw [reckon_of_holder g hr, endBlindness_of_holder hfields]
  simp only [reckonedFields, overTopChange_eq, formYardStock_eq_yardFormed, hrecord,
    conditionAfter_eq_conditionBy, conditionChange_eq_conditionTaken, recomputeSupply_eq_supplyRecomputed, clampRise,
    reckoningTaken, hr]

end Sys2Proof.Laws
end

section
/-! SUPPORT. The statements about reckonings, point updates at a holder, and the standard correction. -/

namespace Sys2Proof.Reckoning

open Sys2Proof Sys2Proof.Machine Sys2Proof.Claims Sys2Proof.Laws

/-! ### Point updates (R23) -/

/-- R23: a point update in its gauge role at a holder, in the statement's words. -/
def gaugeTaken (u : PointUpdate) (k : Nat) (s : State) : State :=
  if u.fromEntry = true then
    match u.quality, u.value with
    | .good, some g => reckoningTaken k g s
    | .failed, _ => blindTaken k s
    | _, _ => s
  else if u.quality = .stale ∨ u.quality = .none then blindTaken k s
  else s

theorem gaugeUpdate_eq_gaugeTaken {k : Nat} {s : State} {r : Holder} (u : PointUpdate) (hr : s.holder k = some r)
    (hc : tableComplete r) : gaugeUpdate u k s = gaugeTaken u k s := by
  obtain ⟨n, kind, value, quality, fromEntry⟩ := u
  unfold gaugeUpdate gaugeTaken
  simp only [fun g => reckon_eq_reckoningTaken g hr hc, becomeBlind_eq_blindTaken]
  cases fromEntry with
  | true =>
    cases quality with
    | good => cases value <;> rfl
    | none | suspect | failed | stale => rfl
  | false => cases quality <;> rfl

/-- R23, R27: a point update in its pressure role at a holder whose record is r, in the statement's words. -/
def pressureTaken (u : PointUpdate) (r : Holder) (k : Nat) (s : State) : State :=
  match s.holder k with
  | none => s
  | some q =>
    let p := (pressureAt q q.stage s).1
    if r.pressurePoint = some u.number ∧ p ≠ q.pressure then supplyRecomputed (s.putHolder k { q with pressure := p })
    else s

theorem pressureUpdate_eq_pressureTaken (u : PointUpdate) (r : Holder) (k : Nat) (s : State) :
    (if r.pressurePoint = some u.number then pressureUpdate k s else s) = pressureTaken u r k s := by
  unfold pressureUpdate pressureTaken
  cases s.holder k with
  | none => exact ite_self s
  | some q =>
    by_cases hp : r.pressurePoint = some u.number <;>
      simp [hp, formPressure_eq_pressureAt, recomputeSupply_eq_supplyRecomputed]

/-- R23: the gauge role, and then the pressure role (log 14). -/
theorem holderUpdated_eq (u : PointUpdate) (r : Holder) (k : Nat) (s : State) :
    holderUpdated u r k s = pressureTaken u r k (if r.gaugePoint = u.number then gaugeTaken u k s else s) :=
  congrArg (pressureTaken u r k) (ite_not (r.gaugePoint = u.number) s (gaugeTaken u k s))

theorem holderUpdate_eq {k : Nat} {s : State} {r : Holder} (u : PointUpdate) (hr : s.holder k = some r)
    (hc : tableComplete r) :
    holderUpdate u s k = if r.inReckoning = true then holderUpdated u r k s else s := by
  simp only [holderUpdate, hr, gaugeUpdate_eq_gaugeTaken u hr hc, pressureUpdate_eq_pressureTaken, holderUpdated_eq]

/-- Settles O53: the condition left by every reckoning, then the whole reckoning and the point updates where the lift
table is complete. -/
theorem reckoningTakesCondition : Obligations.ReckoningTakesCondition := by
  refine ⟨fun k g s r hr => ⟨?_, reckon_eq_reckoningTaken g hr⟩, fun u k s r hr hc => holderUpdate_eq u hr hc⟩
  obtain ⟨q, hq, hcondition⟩ := reckon_condition g hr
  exact ⟨q, hq, hcondition.trans (conditionAfter_eq_conditionBy _ _)⟩

/-! ### The standard correction (R12, R28, R30) -/

theorem barometer_eq_barometerOf (s : State) : barometer s = barometerOf s := by
  unfold barometer barometerOf
  rw [goodValue_eq_valueWithin]
  cases valueWithin s.settings.barometerPoint 85000 110000 s <;> rfl

theorem valueWithin_bounds {n : Option Nat} {lo hi v : Int} {s : State} (h : valueWithin n lo hi s = some v) :
    lo ≤ v ∧ v ≤ hi := by
  obtain ⟨p, -, hp⟩ := Option.bind_eq_some_iff.mp h
  split at hp
  · simpa using (Option.filter_eq_some_iff.mp hp).2
  · cases hp

/-- R28: the barometer lies in its range, read or fallen back on. -/
theorem barometerOf_bounds (s : State) : 85000 ≤ (barometerOf s).1 ∧ (barometerOf s).1 ≤ 110000 := by
  unfold barometerOf
  cases h : valueWithin s.settings.barometerPoint 85000 110000 s with
  | none => exact ⟨by decide, by decide⟩
  | some v => exact valueWithin_bounds h

theorem vapourEntry_eq (s : State) (i : Nat) :
    vapourEntry s i = (((s.vapour[i]?).join).getD 0, ((s.vapour[i]?).join).isNone) := by
  unfold vapourEntry tableGet
  cases (s.vapour[i]?).join <;> rfl

/-- An entry of a Vapour Table within its range reads at most 10,000 Pa. -/
theorem vapourEntry_le {s : State} (h : ∀ i x : Nat, s.vapour[i]? = some (some x) → x ≤ 10000) (i : Nat) :
    (vapourEntry s i).1 ≤ 10000 := by
  rw [vapourEntry_eq]
  cases hx : (s.vapour[i]?).join with
  | none => exact Nat.zero_le _
  | some x => exact h i x (Option.join_eq_some_iff.mp hx)

/-- A share of two numbers in hundredths, rounded, is no more than a bound of both. -/
theorem rounded_share_le {a b f bound : Nat} (ha : a ≤ bound) (hb : b ≤ bound) (hf : f ≤ 100) :
    rounded (a * (100 - f) + b * f) 100 ≤ bound := by
  have hsum : a * (100 - f) + b * f ≤ bound * 100 :=
    calc a * (100 - f) + b * f ≤ bound * (100 - f) + bound * f :=
          Nat.add_le_add (Nat.mul_le_mul_right _ ha) (Nat.mul_le_mul_right _ hb)
      _ = bound * 100 := by rw [← Nat.mul_add, Nat.sub_add_cancel hf]
  unfold rounded
  omega

theorem vapourLookup_le {s : State} (h : ∀ i x : Nat, s.vapour[i]? = some (some x) → x ≤ 10000) (t : Int) :
    (vapourLookup t s).1 ≤ 10000 := by
  unfold vapourLookup
  dsimp only
  split
  · exact vapourEntry_le h _
  · exact rounded_share_le (vapourEntry_le h _) (vapourEntry_le h _) (Nat.mod_lt _ (by decide)).le

/-- R12, note 1: with no hundredths the share is the entry of the whole degree. -/
theorem rounded_whole (a b : Nat) : rounded (a * (100 - 0) + b * 0) 100 = a := by
  unfold rounded
  omega

theorem lookupTemperature_eq (t : Int) : lookupTemperature t = (max 0 (min 4000 t)).toNat := by
  unfold lookupTemperature
  omega

/-- R12: the lookup in the statement's words. -/
theorem vapourAt_eq (t : Int) (s : State) :
    vapourAt t s = (((vapourLookup t s).1 : Int), (vapourLookup t s).2) := by
  unfold vapourAt vapourLookup
  simp only [← lookupTemperature_eq, vapourEntry_eq]
  have hle : lookupTemperature t ≤ 4000 := Nat.min_le_left _ _
  generalize lookupTemperature t = c at hle
  have hshare : c - 100 * (c / 100) = c % 100 := by omega
  rw [hshare]
  by_cases hc : c = 4000
  · subst hc
    rfl
  · by_cases hf : c % 100 = 0
    · rw [if_neg hc, if_pos hf, hf]
      have hwhole := rounded_whole (((s.vapour[c / 100]?).join).getD 0) (((s.vapour[c / 100 + 1]?).join).getD 0)
      refine Prod.ext (congrArg Nat.cast hwhole) ?_
      simp
    · rw [if_neg hc, if_neg hf]
      refine Prod.ext rfl ?_
      simp [hf]

/-- R30: the rounded quotient, of numbers that are not negative. -/
theorem standardVolume_eq (v : Nat) {b p t : Int} {e : Nat} (hn : 0 ≤ b + p - e) (ht : 0 ≤ 27315 + t) :
    (standardVolume v b p t e : Int) =
      (2 * (v * (b + p - e) * 28815) + 101325 * (27315 + t)) / (2 * (101325 * (27315 + t))) := by
  unfold standardVolume rounded
  push_cast
  rw [Int.toNat_of_nonneg hn, Int.toNat_of_nonneg ht]

/-- Settles O52: the ranges of the barometer and of the lookup, then the quotient. -/
theorem standardCorrectionRounds : Obligations.StandardCorrectionRounds := by
  refine ⟨rfl, fun v p t s hp hp' ht ht' hvapour => ?_⟩
  have hb := barometerOf_bounds s
  have he : ((vapourLookup t s).1 : Int) ≤ 10000 := by exact_mod_cast vapourLookup_le hvapour t
  have hsum : 75000 ≤ (barometerOf s).1 + p - ((vapourLookup t s).1 : Int) := by omega
  simp only [vapourAt_eq, standardCorrection, barometer_eq_barometerOf]
  refine ⟨hb, ⟨Int.natCast_nonneg _, he⟩, hsum, by omega, ?_, standardVolume_eq v (by omega) (by omega), trivial⟩
  exact Int.mul_nonneg (Int.mul_nonneg (Int.natCast_nonneg _) (by omega)) (by decide)

end Sys2Proof.Reckoning
end

section
/-! SUPPORT. The statements about the requests that load holders and their lift tables and carry their service. -/

namespace Sys2Proof.Holders

open Sys2Proof Sys2Proof.Machine Sys2Proof.Claims Sys2Proof.Laws Sys2Proof.Points

/-! ### LOAD_LIFT (R41) -/

theorem loadLift_range_iff (h k : Nat) (l : Lift) :
    (outside 1 8 h || outside 1 4 k || decide (65000 < l.pickup) || (k == 1 && l.pickup != 0)
        || outside 1 400000 l.area || decide (5000 < l.pressure)) = true ↔
      h < 1 ∨ 8 < h ∨ k < 1 ∨ 4 < k ∨ 65000 < l.pickup ∨ (k = 1 ∧ l.pickup ≠ 0) ∨ l.area < 1 ∨ 400000 < l.area ∨
        5000 < l.pressure := by
  simp [outside, or_assoc]

theorem cleared_eq_uncomputed (r : Holder) : r.cleared = uncomputed r := rfl

/-- R41: the entry of a stage, filled in a holder's table. -/
theorem storeLift_of_holder {h k : Nat} {s : State} {q : Holder} (l : Lift) (hq : s.holder h = some q) (hk : 1 ≤ k) :
    storeLift h k l s =
      yardFormed (s.putHolder h { uncomputed q with lifts := q.lifts.setIfInBounds (k - 1) (some l) }) := by
  obtain ⟨i, rfl⟩ : ∃ i, k = i + 1 := ⟨k - 1, by omega⟩
  simp only [storeLift, hq, formYardStock_eq_yardFormed, cleared_eq_uncomputed]
  rfl

/-- Settles O41: the first of the four checks that fails, or the entry filled. -/
theorem loadLiftActs : Obligations.LoadLiftActs := by
  intro f r s u h
  have answer : ∀ {result : ResultCode} {v : State}, loadLift f u = ⟨result, [], v⟩ →
      exec .loadLift s = .next (answered r 9 result [] v) := request_of_performed h (by decide) (by decide)
  have hrange := loadLift_range_iff (octetAt f 0) (octetAt f 1) ⟨field f 2 2, field f 4 4, field f 8 2⟩
  dsimp only at hrange ⊢
  split_ifs with hlen hw
  · exact answer (judge_fails (firstFailure_here (bne_iff_ne.mpr hlen)) _ _)
  · exact answer (judge_fails ((firstFailure_next (mt bne_iff_ne.mp hlen)).trans
      (firstFailure_here (hrange.mpr hw))) _ _)
  have hpassed : ∀ rest, firstFailure ((f.length != 10, .badFormat) :: (_, .outOfRange) :: rest) = firstFailure rest :=
    fun rest => (firstFailure_next (mt bne_iff_ne.mp hlen)).trans (firstFailure_next (mt hrange.mp hw))
  cases hq : u.holder (octetAt f 0) with
  | none => exact answer (judge_fails ((hpassed _).trans (firstFailure_here (by simp [hq]))) _ _)
  | some q =>
    dsimp only
    split_ifs with hk hin
    · exact answer (judge_fails ((hpassed _).trans (firstFailure_here (by simp [hq, hk]))) _ _)
    · exact answer (judge_fails ((hpassed _).trans ((firstFailure_next (by simpa [hq] using hk)).trans
        (firstFailure_here (by simp [hq, hin])))) _ _)
    · rw [← storeLift_of_holder _ hq (by omega)]
      exact answer (judge_accepts ((hpassed _).trans ((firstFailure_next (by simpa [hq] using hk)).trans
        (firstFailure_next (by simp [hq, hin])))) _ _)

/-! ### LOAD_HOLDER (R41, R42, R59) -/

theorem allBits_drop_iff (f : List Byte) (i : Nat) : allBits (f.drop i) = true ↔ bitsFrom f i := by
  simp [allBits, bitsFrom]

theorem loadHolder_format_iff (f : List Byte) :
    (f.length != 28 || octetAt f 2 == 255 || !allBits (f.drop 22)) = true ↔
      ¬ (f.length = 28 ∧ octetAt f 2 ≠ 255 ∧ bitsFrom f 22) := by
  rw [← allBits_drop_iff]
  by_cases hl : f.length = 28 <;> by_cases hg : octetAt f 2 = 255 <;> simp [hl, hg]

theorem badHolderField_iff (f : List Byte) : badHolderField f = true ↔ ¬ holderFieldsFit f := by
  simp only [badHolderField, holderFieldsFit, mayBePoint, Bool.or_eq_true, outside, badPoint, decide_eq_true_eq]
  omega

/-- R82: some loaded district names the address as its governor station. -/
theorem districtOfStation_isSome_iff (a : Nat) (s : State) :
    (s.districtOfStation a).isSome = true ↔ ∃ d q, s.district d = some q ∧ q.governor = a := by
  unfold State.districtOfStation
  rw [List.find?_isSome, ← List.any_eq_true]
  simpa using any_district_iff s (fun q => q.governor == a)

theorem valveStationTaken_iff (h a : Nat) (s : State) :
    valveStationTaken h a s = true ↔
      (∃ k q, k ≠ h ∧ s.holder k = some q ∧ q.valveStation = a) ∨ ∃ d q, s.district d = some q ∧ q.governor = a := by
  unfold valveStationTaken
  rw [Bool.or_eq_true, districtOfStation_isSome_iff]
  refine or_congr_left ?_
  simp only [List.any_eq_true, Bool.and_eq_true, Option.any_eq_true, bne_iff_ne, beq_iff_eq]
  constructor
  · rintro ⟨k, -, hne, q, hq, ha⟩
    exact ⟨k, q, hne, hq, ha⟩
  · rintro ⟨k, q, hne, hq, ha⟩
    have := recordGet_some_le hq
    exact ⟨k, by simp; omega, hne, q, hq, ha⟩

theorem octetAt_drop (f : List Byte) (i j : Nat) : octetAt (f.drop i) j = octetAt f (i + j) := by
  simp [octetAt, List.getD]

theorem loadedHolder_eq_holderLoaded (f : List Byte) (lifts : Vector (Option Lift) 4) :
    loadedHolder f lifts = holderLoaded f lifts := by
  unfold loadedHolder holderLoaded
  simp only [districtSetOf, octetAt_drop, beq_eq_decide]
  rfl

/-- R42: what LOAD-HOLDER performs for a holder loaded for the first time. -/
theorem storeHolder_first {f : List Byte} {s : State} (hh : 1 ≤ octetAt f 0) (hn : s.holder (octetAt f 0) = none) :
    storeHolder f s =
      stationTaken (octetAt f 1) (handedSetEmptied (octetAt f 0)
        ((yardFormed (s.putHolder (octetAt f 0) (holderLoaded f (Vector.replicate 4 none)))).putRouting (octetAt f 0)
          routingFresh)) := by
  simp only [storeHolder, hn, createRouting, formYardStock_eq_yardFormed, withdrawFromNewStation_eq_stationTaken,
    loadedHolder_eq_holderLoaded, writeOutletSet_eq hh]
  rfl

/-- R59: the Routing Record of a holder whose valve station changed. -/
theorem moveRouting_eq {h : Nat} (hh : 1 ≤ h) (a : Nat) (former : DistrictSet) (s : State) :
    moveRouting h a former s =
      let moved := failuresCleared h (s.putRouting h routingFresh)
      stationTaken a (if former = Vector.replicate 6 false then moved
        else supplyRecomputed (handedSetEmptied h moved)) := by
  simp only [moveRouting, withdrawFromNewStation_eq_stationTaken, handOutletSet_eq hh]
  rfl

/-- R41, R59: what LOAD-HOLDER performs for a holder already loaded. -/
theorem storeHolder_again {f : List Byte} {s : State} {q : Holder} {g : Routing} (hq : s.holder (octetAt f 0) = some q)
    (hg : s.routing (octetAt f 0) = some g) :
    storeHolder f s =
      let w := yardFormed (s.putHolder (octetAt f 0) (holderLoaded f q.lifts))
      if q.valveStation = octetAt f 1 then w else moveRouting (octetAt f 0) (octetAt f 1) g.outletSet w := by
  simp only [storeHolder, hq, hg, formYardStock_eq_yardFormed, loadedHolder_eq_holderLoaded]

@[simp] theorem yardFormed_holder (k : Nat) (s : State) : (yardFormed s).holder k = s.holder k := rfl

@[simp] theorem handedSetEmptied_holder (h k : Nat) (s : State) : (handedSetEmptied h s).holder k = s.holder k := rfl

@[simp] theorem handedSetEmptied_routing (h k : Nat) (s : State) : (handedSetEmptied h s).routing k = s.routing k := rfl

/-- The actions of R42 and R59 at a new valve station keep its holder's records: the OUT withdrawal and the hand-over of
the emptied set write neither. -/
theorem stationTaken_supply (a : Nat) (s : State) : SupplyOnly s (stationTaken a s) := by
  rw [← withdrawFromNewStation_eq_stationTaken]
  exact .withdrawFromNewStation a s

theorem supplyRecomputed_supply (s : State) : SupplyOnly s (supplyRecomputed s) := by
  rw [← recomputeSupply_eq_supplyRecomputed]
  exact .recomputeSupply s

theorem failuresCleared_records (h : Nat) (s : State) : RecordsOnly s (failuresCleared h s) :=
  .foldl (fun s _ => .clearAlarm _ s) _ s

/-- R59: the Holder Record and the Routing Record after the valve station changed, the hand-over of the emptied set made
or not. -/
theorem moved_records {h : Nat} {s : State} (a : Nat) (former : DistrictSet) :
    let moved := failuresCleared h s
    let v := stationTaken a (if former = Vector.replicate 6 false then moved
      else supplyRecomputed (handedSetEmptied h moved))
    v.holder h = s.holder h ∧ v.routing h = s.routing h := by
  have hmoved := failuresCleared_records h s
  have hsupply := supplyRecomputed_supply (handedSetEmptied h (failuresCleared h s))
  dsimp only
  rw [(stationTaken_supply _ _).holder, (stationTaken_supply _ _).routing]
  split
  · exact ⟨hmoved.holder h, hmoved.routing h⟩
  · rw [hsupply.holder, hsupply.routing, handedSetEmptied_holder, handedSetEmptied_routing]
    exact ⟨hmoved.holder h, hmoved.routing h⟩

theorem moveRouting_yard (h a : Nat) (former : DistrictSet) (s : State) : Yard s (moveRouting h a former s) := by
  unfold moveRouting clearCloseFailures
  refine .withdrawFromNewStation a ?_
  have hmoved : Yard s ([0, 1, 2, 3, 4, 5, 6].foldl (fun s v => clearAlarm ⟨.closeFailed, h, some v⟩ s)
      (s.putRouting h Routing.fresh)) :=
    .foldl (fun v ht => ht.clearAlarm _) _ (.routing s h _)
  split
  · exact hmoved
  · exact hmoved.handOutletSet h _

/-- Settles O40: the first of the four checks that fails, or the record stored, by whether the holder was loaded and
whether its valve station changes. -/
theorem loadHolderActs : Obligations.LoadHolderActs := by
  intro f r s u h
  have answer : ∀ {result : ResultCode} {v : State}, loadHolder f u = ⟨result, [], v⟩ →
      exec .loadHolder s = .next (answered r 8 result [] v) := request_of_performed h (by decide) (by decide)
  have hformat := loadHolder_format_iff f
  have hrange := badHolderField_iff f
  have htaken := valveStationTaken_iff (octetAt f 0) (octetAt f 1) u
  refine ⟨fun hbad => answer (judge_fails (firstFailure_here (hformat.mpr hbad)) _ _), fun hf hw => answer ?_,
    fun hf hw ht => answer ?_, fun hf hw ht => ?_⟩
  · exact judge_fails ((firstFailure_next (mt hformat.mp (not_not_intro hf))).trans
      (firstFailure_here (hrange.mpr hw))) _ _
  · exact judge_fails ((firstFailure_next (mt hformat.mp (not_not_intro hf))).trans
      ((firstFailure_next (mt hrange.mp (not_not_intro hw))).trans (firstFailure_here (htaken.mpr ht)))) _ _
  have hpassed : ∀ rest, firstFailure ((_, .badFormat) :: (_, .outOfRange) :: (_, .duplicate) :: rest)
      = firstFailure rest := fun rest =>
    (firstFailure_next (mt hformat.mp (not_not_intro hf))).trans
      ((firstFailure_next (mt hrange.mp (not_not_intro hw))).trans (firstFailure_next (mt htaken.mp ht)))
  have accepted : (u.holder (octetAt f 0)).any (·.inReckoning) = false →
      loadHolder f u = ⟨.accepted, [], storeHolder f u⟩ := fun hout =>
    judge_accepts ((hpassed _).trans (firstFailure_next (by simp [hout]))) _ _
  obtain ⟨hlo, hhi⟩ := hw.1
  refine ⟨fun q hq hin => answer ?_, fun hn => ⟨_, rfl, answer ?_, ?_, ?_⟩, fun q g hq hg hout =>
    ⟨fun ha => answer ?_, fun ha => ⟨_, rfl, answer ?_, ?_, ?_, ?_⟩⟩⟩
  · exact judge_fails ((hpassed _).trans (firstFailure_here (by simp [hq, hin]))) _ _
  · rw [← storeHolder_first hlo hn]
    exact accepted (by simp [hn])
  · rw [(stationTaken_supply _ _).holder, handedSetEmptied_holder, putRouting_holder, yardFormed_holder]
    exact putHolder_of_number hlo hhi _ u
  · rw [(stationTaken_supply _ _).routing, handedSetEmptied_routing]
    exact putRouting_of_number hlo hhi _ _
  · exact (accepted (by simp [hq, hout])).trans (by rw [storeHolder_again hq hg, if_pos ha])
  · exact (accepted (by simp [hq, hout])).trans (by rw [storeHolder_again hq hg, if_neg ha, moveRouting_eq hlo])
  · refine (moved_records _ g.outletSet).1.trans ?_
    rw [putRouting_holder, yardFormed_holder]
    exact putHolder_of_number hlo hhi _ u
  · exact (moved_records _ g.outletSet).2.trans (putRouting_of_number hlo hhi _ _)
  · have hyard := (moveRouting_yard (octetAt f 0) (octetAt f 1) g.outletSet
      (yardFormed (u.putHolder (octetAt f 0) (holderLoaded f q.lifts)))).points_eq
    rw [moveRouting_eq hlo] at hyard
    exact hyard

/-! ### HOLDER_SERVICE (R39, R40) -/

theorem strictlyRising_iff (l : List Nat) : strictlyRising l = true ↔ l.Pairwise (· < ·) := by
  rw [← List.isChain_iff_pairwise]
  induction l with
  | nil => simp [strictlyRising]
  | cons a rest ih =>
    cases rest with
    | nil => simp [strictlyRising]
    | cons b rest => rw [strictlyRising, Bool.and_eq_true, ih, decide_eq_true_eq, List.isChain_cons_cons]

/-- R21: the lift table's completeness, with the last pickup rise below the top. -/
theorem complete_iff (q : Holder) :
    q.complete = true ↔
      (∀ l ∈ q.lifts.toList.take q.stageCount, l ≠ none) ∧
        ((q.lifts.toList.take q.stageCount).filterMap (fun l => l.map (·.pickup))).Pairwise (· < ·) ∧
        ∃ g, ((q.lifts.toList.take q.stageCount).filterMap (fun l => l.map (·.pickup))).getLast? = some g ∧
          g < q.topRise := by
  unfold Holder.complete Holder.liftList
  simp only [Bool.and_eq_true, strictlyRising_iff, Option.any_eq_true, decide_eq_true_eq, List.all_eq_true,
    Option.isSome_iff_ne_none, and_assoc]

theorem consistent_iff (q : Holder) :
    q.consistent = true ↔
      (q.landedMark < q.lowMark ∧ q.lowMark < q.highMark ∧ q.highMark < q.topMark ∧ q.topMark ≤ q.topRise) ∧
        (q.landedMark + q.hysteresis < q.lowMark ∧ q.lowMark + q.hysteresis < q.highMark ∧
          q.highMark + q.hysteresis < q.topMark) := by
  simp only [Holder.consistent, decide_eq_true_eq]
  omega

theorem mayComeIn_iff_mayEnter (q : Holder) (s : State) : mayComeIn q s = true ↔ mayEnter q s := by
  unfold mayComeIn mayEnter
  simp only [Bool.and_eq_true, complete_iff, consistent_iff, Option.any_eq_true, beq_iff_eq, and_assoc]

/-- R21, R39: a holder that may come in has a complete lift table. -/
theorem tableComplete_of_mayEnter {q : Holder} {s : State} (h : mayEnter q s) : tableComplete q := by
  obtain ⟨hfull, hrise, ⟨g, hlast, -⟩, -⟩ := h
  refine ⟨Nat.pos_of_ne_zero fun hzero => ?_, hfull, hrise⟩
  simp [hzero] at hlast

/-- R39: the record of a holder as it comes IN. -/
def entering (q : Holder) : Holder :=
  { q with inReckoning := true, condition := .normal, blind := true, quality := .stale, overTop := false }

/-- R40: the record of a holder as it goes OUT. -/
def leaving (q : Holder) : Holder :=
  { q with inReckoning := false, condition := .normal, blind := false, overTop := false, quality := .stale }

/-- R39: the state in which a holder has come IN, before its gauge is looked at. -/
def entered (h : Nat) (q : Holder) (s : State) : State :=
  handStockPartial (recomputeSupply (oweHolderState h (formYardStock (s.putHolder h (entering q)))))

theorem entered_eq (h : Nat) (q : Holder) (s : State) :
    entered h q s = partialFlagged (supplyRecomputed (oweReference (.holder h)
      (yardFormed (s.putHolder h (entering q))))) := by
  rw [entered, handStockPartial_eq_partialFlagged, recomputeSupply_eq_supplyRecomputed, formYardStock_eq_yardFormed]
  rfl

@[simp] theorem handStockPartial_holder (k : Nat) (s : State) : (handStockPartial s).holder k = s.holder k := rfl

@[simp] theorem formYardStock_holder (k : Nat) (s : State) : (formYardStock s).holder k = s.holder k := rfl

@[simp] theorem oweHolderState_holder (h k : Nat) (s : State) : (oweHolderState h s).holder k = s.holder k :=
  (RecordsOnly.oweReference _ s).holder k

theorem entered_holder {h : Nat} {s : State} {q : Holder} (hq : s.holder h = some q) :
    (entered h q s).holder h = some (entering q) := by
  rw [entered, handStockPartial_holder, (SupplyOnly.recomputeSupply _).holder, oweHolderState_holder,
    formYardStock_holder]
  exact putHolder_self _ hq

theorem entered_point (h n : Nat) (q : Holder) (s : State) : (entered h q s).point n = s.point n := by
  have hyard : Yard s (entered h q s) :=
    .handStockPartial (.recomputeSupply (.oweHolderState h (.formYardStock (.holder s h (entering q)))))
  exact point_congr hyard.points_eq n

theorem bringIn_of_holder {h : Nat} {s : State} {q : Holder} (hq : s.holder h = some q) :
    bringIn h s =
      match (s.point q.gaugePoint).bind (fun p => if p.quality = .good then p.value else none) with
      | none => entered h q s
      | some g => reckon h g (entered h q s) := by
  rw [← entered_point h q.gaugePoint q s]
  simp only [bringIn, hq]
  rfl

/-- R40: the actions of a holder going OUT, in the statement's words. -/
theorem takeOut_of_holder {h : Nat} {s : State} {q : Holder} (hq : s.holder h = some q) :
    takeOut h s = partialFlagged (supplyRecomputed (causeTaken h .out (oweReference (.holder h) (yardFormed
      ((cleared .holderBlind h (cleared .overTop h (conditionCleared h q.condition s))).putHolder h
        (leaving q)))))) := by
  simp only [takeOut, hq, handStockPartial_eq_partialFlagged, recomputeSupply_eq_supplyRecomputed,
    interlockCause_eq_causeTaken, formYardStock_eq_yardFormed, clearCondition_eq]
  rfl

/-- R40: going OUT writes the holder's own record and no other. -/
theorem takeOut_holder {h : Nat} {s : State} {q : Holder} (hq : s.holder h = some q) (k : Nat) :
    (takeOut h s).holder k = if h = k then some (leaving q) else s.holder k := by
  have hnumber := recordGet_some_le hq
  simp only [takeOut, hq, handStockPartial_holder, (SupplyOnly.recomputeSupply _).holder, interlockCause_holder,
    oweHolderState_holder, formYardStock_holder, putHolder_holder, (RecordsOnly.clearAlarm _ _).holder,
    clearCondition_holder, hnumber, and_self, and_true]
  rfl

/-- R39, R40: the reckoning state carried, of a holder that has the other. -/
theorem setService_in {h : Nat} {s : State} {q : Holder} (hq : s.holder h = some q) (hout : q.inReckoning = false) :
    setService h true s = bringIn h s := by
  simp [setService, hq, hout]

theorem setService_out {h : Nat} {s : State} {q : Holder} (hq : s.holder h = some q) (hin : q.inReckoning = true) :
    setService h false s = takeOut h s := by
  simp [setService, hq, hin]

theorem setService_already {h : Nat} {s : State} {q : Holder} (hq : s.holder h = some q) :
    setService h q.inReckoning s = s := by
  simp [setService, hq]

theorem holderService_format_iff (f : List Byte) :
    (f.length != 2 || (boolOf (octetAt f 1)).isNone) = true ↔ f.length ≠ 2 ∨ 1 < octetAt f 1 := by
  rw [Bool.or_eq_true, boolOf_isNone_iff, bne_iff_ne]

/-- R39: the check of HOLDER-SERVICE IN at a loaded holder. -/
theorem notAllowed_iff {h : Nat} {s : State} {q : Holder} (hq : s.holder h = some q) (enter : Bool) :
    (enter && !(s.holder h).any (fun r => mayComeIn r s)) = true ↔ enter = true ∧ ¬ mayEnter q s := by
  simp [hq, ← mayComeIn_iff_mayEnter]

/-- Settles O42: the first of the four checks that fails, or the reckoning state carried, by the octet and the state the
holder has. -/
theorem holderServiceActs : Obligations.HolderServiceActs := by
  intro f r s u h
  have answer : ∀ {result : ResultCode} {v : State}, holderService f u = ⟨result, [], v⟩ →
      exec .holderService s = .next (answered r 10 result [] v) := request_of_performed h (by decide) (by decide)
  have hformat := holderService_format_iff f
  refine ⟨fun hbad => answer (judge_fails (firstFailure_here (hformat.mpr hbad)) _ _), fun hlen hbit => ?_⟩
  have hgood : ∀ rest, firstFailure ((_, .badFormat) :: rest) = firstFailure rest := fun rest =>
    firstFailure_next (mt hformat.mp (by omega))
  refine ⟨fun hh => answer (judge_fails ((hgood _).trans (firstFailure_here (by simpa [outside] using hh))) _ _),
    fun hlo hhi hn => answer (judge_fails ((hgood _).trans ((firstFailure_next (by simp [outside]; omega)).trans
      (firstFailure_here (by simp [hn])))) _ _), fun q hq => ?_⟩
  have hnumber := recordGet_some_le hq
  have hallowed := notAllowed_iff hq (octetAt f 1 == 1)
  have hloaded : ∀ rest, firstFailure ((_, .badFormat) :: (outside 1 8 (octetAt f 0), .outOfRange)
      :: ((u.holder (octetAt f 0)).isNone, .unknownItem) :: rest) = firstFailure rest := fun rest =>
    (hgood _).trans ((firstFailure_next (by simp [outside]; omega)).trans (firstFailure_next (by simp [hq])))
  have accepted : ∀ enter, (octetAt f 1 == 1) = enter → (enter = true → mayEnter q u) →
      holderService f u = ⟨.accepted, [], setService (octetAt f 0) enter u⟩ := by
    rintro _ rfl hmay
    exact judge_accepts ((hloaded _).trans (firstFailure_next (mt hallowed.mp fun hbad => hbad.2 (hmay hbad.1)))) _ _
  refine ⟨fun hon hnot => answer (judge_fails ((hloaded _).trans (firstFailure_here
      (hallowed.mpr ⟨by simp [hon], hnot⟩))) _ _), fun hon hmay hin => answer ?_, fun hon hmay hout => ?_,
    fun hoff hout => answer ?_, fun hoff hin => ⟨takeOut (octetAt f 0) u, answer ?_, takeOut_of_holder hq, ?_, ?_,
      (Yard.takeOut _ (.refl u)).points_eq⟩⟩
  · exact (accepted true (by simp [hon]) fun _ => hmay).trans (by rw [← hin, setService_already hq])
  · have haccepted := accepted true (by simp [hon]) fun _ => hmay
    rw [setService_in hq hout, bringIn_of_holder hq] at haccepted
    have hentered := entered_holder hq
    have hcomplete : tableComplete (entering q) := tableComplete_of_mayEnter hmay
    have heq := entered_eq (octetAt f 0) q u
    dsimp only
    cases hg : (u.point q.gaugePoint).bind (fun p => if p.quality = .good then p.value else none) with
    | none =>
      rw [hg, heq] at haccepted
      rw [heq] at hentered
      exact ⟨answer haccepted, hentered⟩
    | some g =>
      rw [hg] at haccepted
      dsimp only at haccepted
      rw [reckon_eq_reckoningTaken g hentered hcomplete, heq] at haccepted
      exact answer haccepted
  · exact (accepted false (by simp [hoff]) fun hf => by cases hf).trans (by rw [← hout, setService_already hq])
  · exact (accepted false (by simp [hoff]) fun hf => by cases hf).trans (by rw [setService_out hq hin])
  · rw [takeOut_holder hq, if_pos rfl]
    rfl
  · exact fun k hk => by rw [takeOut_holder hq, if_neg (Ne.symm hk)]

end Sys2Proof.Holders
end

section
/-! SUPPORT. The statements about the checks of an office COMMAND, the reply timer, and what moves a closure sequence. -/

namespace Sys2Proof.Interlocks

open Sys2Proof Sys2Proof.Machine Sys2Proof.Claims Sys2Proof.Laws

/-! ### The checks of an office COMMAND (R47, R48, R82) -/

/-- R61: a body of three octets has an order code. -/
theorem orderCode_of_three {body : List Byte} (h : body.length = 3) : orderCode body = some (octetAt body 0) := by
  cases body with
  | nil => cases h
  | cons b l => rfl

/-- R61: a body of three octets has an operand. -/
theorem operandOf_of_three {body : List Byte} (h : body.length = 3) : operandOf body = some (field body 1 2) :=
  if_pos h.ge

theorem openRefusal_eq_whyNotOpen (r : Holder) (v : Nat) : openRefusal r v = whyNotOpen r v := by
  unfold openRefusal whyNotOpen
  cases r.inReckoning <;> cases r.blind <;> cases r.permitted.has v <;> rfl

/-- R47: the valve check of a body of three octets looks at an OPEN of a valve 0 to 6. -/
theorem valveCheck_of_three {body : List Byte} (h : body.length = 3) (r : Holder) :
    valveCheck r body =
      if octetAt body 0 = 1 ∧ field body 1 2 ≤ 6 then whyNotOpen r (field body 1 2) else none := by
  unfold valveCheck
  simp only [h, orderCode_of_three h, operandOf_of_three h, openRefusal_eq_whyNotOpen, true_and, Option.some.injEq,
    ite_and]

/-- R82: the governor check of a body of three octets looks at a SET, code 3, and a RELEASE, code 4. -/
theorem governorCheck_of_three {body : List Byte} (h : body.length = 3) (r : District) :
    governorCheck r body = whyNotSet r (octetAt body 0) (field body 1 2) := by
  unfold governorCheck whyNotSet
  rw [if_pos h, orderCode_of_three h, operandOf_of_three h]
  by_cases hset : octetAt body 0 = 3
  · simp only [hset, if_true]
  · by_cases hrelease : octetAt body 0 = 4
    · simp [hrelease]
    · simp [hset, hrelease]

theorem valveCheck_of_other {body : List Byte} (h : body.length ≠ 3) (r : Holder) : valveCheck r body = none :=
  if_neg fun hbody => h hbody.1

theorem governorCheck_of_other {body : List Byte} (h : body.length ≠ 3) (r : District) : governorCheck r body = none :=
  if_neg h

/-- Settles O17: the body's length decides whether either check looks at it. -/
theorem officeOrdersAreChecked : Obligations.OfficeOrdersAreChecked := by
  refine fun a body s => ⟨fun h => ?_, fun h => ?_⟩
  · simp [commandRefusal, valveCheck_of_other h, governorCheck_of_other h]
  · simp only [commandRefusal, valveCheck_of_three h, governorCheck_of_three h]

/-! ### The reply timer (R68, R69) -/

/-- R57: the ending of a close that hands the next entry over. -/
theorem closeEnded_eq_closeEnding (h : Nat) (o : Order) (done : Bool) (s : State) :
    closeEnded h o done true s = closeEnding h o done s := by
  unfold closeEnded closeEnding
  cases hq : s.routing h with
  | none => rfl
  | some q =>
    cases hsequence : q.sequence with
    | nil => simp [hsequence]
    | cons c rest =>
      simp only [hsequence, setSequence_of_routing hq, closeOutcome_eq_closeJudged, handOver_eq_sequenceHanded, if_true]
      rfl

/-- R69: an order failed after its fifth send, by its origin. -/
theorem orderFailed_eq (o : Order) (s : State) :
    orderFailed o s =
      match o.origin with
      | .office => oweFull (.refusal o.station o.code o.operand .noReply) s
      | .interlock =>
        match s.holderOfStation o.station with
        | none => s
        | some h => closeEnding h o false s
      | .scheduler k =>
        match s.district k with
        | none => raised .orderFailed k s
        | some r =>
          if o.code = some 3 ∧ r.governor = o.station then
            (raised .orderFailed k s).putDistrict k { r with setFailed := true }
          else raised .orderFailed k s := by
  unfold orderFailed
  cases o.origin with
  | office => rfl
  | interlock =>
    simp only [handCloseEnding, closeEnded_eq_closeEnding] <;> rfl
  | scheduler k =>
    have hset : o.isSet = true ↔ o.code = some 3 := beq_iff_eq
    have hdistrict := (RecordsOnly.raiseAlarm (alarmKey .orderFailed k) s).district k
    simp only [setFailed, hset, if_true, hdistrict]
    cases s.district k with
    | none => exact ite_self _
    | some r => exact (ite_and _ _ _ _).symm

/-- R68: the reply timer's expiry at a station that awaits a reply. -/
theorem replyTimerExpired_of_awaiting {a d : Nat} {s : State} {e : Station} {o : Order} (he : s.station a = some e)
    (hslot : e.slot = .awaitingReply o d) :
    replyTimerExpired a s =
      if o.sends < 5 then s.modStation a (fun x => { x with slot := .bufferWait o })
      else headTaken a (orderFailed o (slotEmptied a s)) := by
  simp only [replyTimerExpired, he, hslot, serve_eq_headTaken]
  rfl

/-- Settles O23: the number of sends decides what the expiry does; the words about closure sequences are the model's
operations. -/
theorem replyTimerExpires : Obligations.ReplyTimerExpires := by
  refine ⟨fun a d s e o hr he hslot => ?_, interlockCause_eq_causeTaken, handOver_eq_sequenceHanded,
    closeEnded_eq_closeEnding⟩
  have hruns : replyTimerRuns a s = true := by simp only [replyTimerRuns, he, hslot]
  have hexec : exec (.replyTimerExpiry a) s = .next (replyTimerExpired a s) := arrival_acts hr hruns
  rw [hexec, replyTimerExpired_of_awaiting he hslot]
  refine ⟨fun hfew => by rw [if_pos hfew], fun hfive => ?_⟩
  rw [if_neg (Nat.not_lt.mpr hfive)]
  exact congrArg (fun v => Host.Outcome.next (headTaken a v)) (orderFailed_eq o (slotEmptied a s))

end Sys2Proof.Interlocks
end

section
/-! SUPPORT. What the primitive changes leave of the Station Directory and the stranger list. -/

namespace Sys2Proof.Directory

open Sys2Proof Sys2Proof.Machine Sys2Proof.Laws

/-! ### Changes that keep the directory and the stranger list -/

/-- The directory and the stranger list stand as before. -/
def DirectoryKept (s t : State) : Prop := t.directory = s.directory ∧ t.strangers = s.strangers

namespace DirectoryKept

variable {s t u : State}

theorem refl (s : State) : DirectoryKept s s := ⟨rfl, rfl⟩

theorem trans (h : DirectoryKept s t) (k : DirectoryKept t u) : DirectoryKept s u :=
  ⟨k.1.trans h.1, k.2.trans h.2⟩

theorem records (h : RecordsOnly s t) : DirectoryKept s t :=
  ⟨(congrArg State.directory h :), (congrArg State.strangers h :)⟩

theorem oweAlarm (key : AlarmKey) (s : State) : DirectoryKept s (oweAlarm key s) := by
  unfold Machine.oweAlarm
  split_ifs <;> exact ⟨rfl, rfl⟩

theorem writeOutletSet (h : Nat) (set : DistrictSet) (s : State) : DirectoryKept s (writeOutletSet h set s) := by
  cases h <;> exact ⟨rfl, rfl⟩

theorem retireHead (e : Entry) (rest : List Entry) (s : State) : DirectoryKept s (retireHead e rest s) := by
  unfold Machine.retireHead
  dsimp only
  split <;> exact ⟨rfl, rfl⟩

theorem oweHourClose (b : DayBook) (n : Nat) (s : State) : DirectoryKept s (oweHourClose b n s) :=
  records ((RecordsOnly.foldl (fun _ _ => .oweReference _ _) _ s).trans (.oweReference _ _))

theorem closeOpenHour (clockSet : Bool) (s : State) : DirectoryKept s (closeOpenHour clockSet s) := by
  unfold Machine.closeOpenHour
  split
  · exact refl s
  · split
    · exact refl s
    · dsimp only
      exact trans (by exact ⟨rfl, rfl⟩) (oweHourClose _ _ _)

theorem dayClose (s : State) : DirectoryKept s (dayClose s) := by
  unfold Machine.dayClose
  split
  · exact refl s
  · dsimp only
    refine trans ?_ (records (.oweReference _ _))
    split
    · split
      · exact refl s
      · exact (records (.raiseAlarm (alarmKey .dayOverwritten 0) s) :)
    · exact refl s

theorem takeWholeHour (hour : Nat) (s : State) : DirectoryKept s (takeWholeHour hour s) := by
  unfold Machine.takeWholeHour
  split
  · exact refl s
  · dsimp only
    split
    · exact refl s
    · refine (closeOpenHour s.clock.setMark s).trans ?_
      split
      · exact dayClose _
      · exact refl _

theorem takeHourDue (s : State) : DirectoryKept s (takeHourDue s) := by
  unfold Machine.takeHourDue
  split
  · exact refl s
  · exact takeWholeHour _ { s with clock := _ }

theorem setForced (d n : Nat) (s : State) : DirectoryKept s (setForced d n s) := by
  refine (closeOpenHour true s).trans ?_
  unfold Machine.setForced
  dsimp only
  generalize Machine.closeOpenHour true s = v
  split
  · exact refl v
  · split
    · exact refl v
    · exact dayClose { v with clock := _ }

end DirectoryKept

/-! ### Changes that keep the directory consistent -/

section Consistent

variable {s t : State}

theorem consistent_of_kept (h : DirectoryConsistent s) (k : DirectoryKept s t) : DirectoryConsistent t := by
  obtain ⟨hdirectory, hstrangers⟩ := k
  exact ⟨hdirectory ▸ h.fits, hstrangers ▸ h.strangersFit, by rw [hdirectory, hstrangers]; exact h.distinct,
    hdirectory ▸ h.listsFit⟩

/-- Entries and strangers may leave. -/
theorem consistent_of_sublist (h : DirectoryConsistent s) (hd : t.directory.Sublist s.directory)
    (hs : t.strangers.Sublist s.strangers) : DirectoryConsistent t where
  fits := hd.length_le.trans h.fits
  strangersFit := hs.length_le.trans h.strangersFit
  distinct := h.distinct.sublist ((hd.map _).append (hs.map _))
  listsFit := fun e he => h.listsFit e (hd.subset he)

/-- Entries may change that keep their addresses and have room in their lists. -/
theorem consistent_of_map {f : Station → Station} (h : DirectoryConsistent s) (hd : t.directory = s.directory.map f)
    (hs : t.strangers = s.strangers) (hf : ∀ e, (f e).address = e.address)
    (hl : ∀ e ∈ s.directory, (f e).pendingList.length ≤ 4) : DirectoryConsistent t where
  fits := by simpa [hd] using h.fits
  strangersFit := hs ▸ h.strangersFit
  distinct := by
    have haddress : (fun e : Station => e.address) ∘ f = (·.address) := funext hf
    rw [hd, hs, List.map_map, haddress]
    exact h.distinct
  listsFit := by simpa [hd] using hl

theorem consistent_modStation {a : Nat} {f : Station → Station} (hf : ∀ e, (f e).address = e.address)
    (hl : ∀ e ∈ s.directory, e.address = a → (f e).pendingList.length ≤ 4) (h : DirectoryConsistent s) :
    DirectoryConsistent (s.modStation a f) := by
  refine consistent_of_map h (f := fun e => if e.address == a then f e else e) rfl rfl (fun e => ?_) (fun e he => ?_)
  · split
    · exact hf e
    · rfl
  · split
    · rename_i hea
      exact hl e he (beq_iff_eq.mp hea)
    · exact h.listsFit e he

/-- R120: an address has one entry. -/
theorem entry_eq_of_address {a : Nat} {e q : Station} (he : s.station a = some e) (hq : q ∈ s.directory)
    (hqa : q.address = a) (h : DirectoryConsistent s) : q = e := by
  have hea : e.address = a := by simpa using List.find?_some he
  exact List.inj_on_of_nodup_map (List.nodup_append.mp h.distinct).1 hq (List.mem_of_find?_eq_some he)
    (hqa.trans hea.symm)

/-- No entry has the address of a station that is not configured. -/
theorem address_notMem_of_station_none {a : Nat} (h : s.station a = none) : a ∉ s.directory.map (·.address) := by
  simpa [State.station] using h

/-- A new address, besides entries and strangers that stay, is distinct from them. -/
theorem distinct_insert {a : Nat} {kept : List Stranger} (hkept : kept.Sublist s.strangers)
    (ha : s.station a = none) (hnew : a ∉ kept.map (·.address)) (h : DirectoryConsistent s) :
    (a :: (s.directory.map (·.address) ++ kept.map (·.address))).Nodup := by
  have hrest := h.distinct.sublist ((List.Sublist.refl _).append (hkept.map _))
  refine List.nodup_cons.mpr ⟨?_, hrest⟩
  rw [List.mem_append]
  exact not_or.mpr ⟨address_notMem_of_station_none ha, hnew⟩

/-- A stranger joins the tail of the strangers that stay. -/
theorem consistent_strangerJoins {a : Nat} {kept : List Stranger} {e : Stranger} (hkept : kept.Sublist s.strangers)
    (hroom : kept.length < 8) (he : e.address = a) (ha : s.station a = none) (hnew : a ∉ kept.map (·.address))
    (h : DirectoryConsistent s) : DirectoryConsistent { s with strangers := kept ++ [e] } where
  fits := h.fits
  strangersFit := by simpa using hroom
  distinct := by
    have hdistinct := distinct_insert hkept ha hnew h
    rw [List.map_append, List.map_singleton, he, ← List.append_assoc]
    exact (List.perm_append_singleton a _).nodup_iff.mpr hdistinct
  listsFit := h.listsFit

/-- The strangers of other addresses hold no stranger of the address. -/
theorem address_notMem_others (l : List Stranger) (a : Nat) :
    a ∉ (l.filter (fun e => e.address != a)).map (·.address) := by
  simp

/-- R127, R128: a stranger heard again moves to the tail; a new one joins it, the first heard leaving a full list. -/
theorem consistent_hearStranger {a : Nat} (b : Branch) (ha : s.station a = none) (h : DirectoryConsistent s) :
    DirectoryConsistent (hearStranger a b s) := by
  have hfits := h.strangersFit
  unfold hearStranger
  split
  · rename_i e he
    have haddress : e.address = a := by simpa using List.find?_some he
    have hfewer : (s.strangers.filter (fun q => q.address != a)).length < s.strangers.length :=
      List.length_filter_lt_length_iff_exists.mpr ⟨e, List.mem_of_find?_eq_some he, by simp [haddress]⟩
    exact consistent_strangerJoins List.filter_sublist (by omega) haddress ha (address_notMem_others _ _) h
  · rename_i hn
    have hnew : a ∉ s.strangers.map (·.address) := by simpa [State.stranger] using hn
    split
    · rename_i hroom
      exact consistent_strangerJoins (List.Sublist.refl _) hroom rfl ha hnew h
    · have hdrop : (s.strangers.drop 1).Sublist s.strangers := List.drop_sublist _ _
      exact consistent_strangerJoins hdrop (by simp only [List.length_drop]; omega) rfl ha
        (fun hmem => hnew ((hdrop.map _).subset hmem)) h

theorem insertStation_perm (e : Station) (l : List Station) : (insertStation e l).Perm (e :: l) := by
  induction l with
  | nil => exact .refl _
  | cons q l ih =>
    unfold insertStation
    split
    · exact .refl _
    · exact (ih.cons q).trans (.swap e q l)

/-- R120, R130: a new entry takes the place of the stranger of its address. -/
theorem consistent_storeStation (x : StationFields) (ha : s.station x.address = none)
    (hroom : s.directory.length < 48) (h : DirectoryConsistent s) : DirectoryConsistent (storeStation x s) := by
  have hperm := insertStation_perm (newStation x (s.stranger x.address)) s.directory
  have hothers : (s.strangers.filter (fun e => e.address != x.address)).Sublist s.strangers := List.filter_sublist
  simp only [storeStation, ha]
  refine ⟨?_, hothers.length_le.trans h.strangersFit, ?_, fun e he => ?_⟩
  · rw [hperm.length_eq]
    exact hroom
  · exact ((hperm.map (·.address)).append_right _).nodup_iff.mpr
      (distinct_insert hothers ha (address_notMem_others _ _) h)
  · rcases List.mem_cons.mp (hperm.mem_iff.mp he) with rfl | hold
    · exact Nat.zero_le _
    · exact h.listsFit e hold

end Consistent

/-! ### Runs of primitive changes -/

section Runs

variable {s t : State}

theorem consistent_yard (k : Yard s t) (h : DirectoryConsistent s) : DirectoryConsistent t := by
  induction k with
  | trans _ _ ih ih' => exact ih' (ih h)
  | station s a f honly hlists =>
    exact consistent_modStation (fun e => by rw [honly e]) (fun e he _ => hlists h.listsFit e he) h
  | outlet s => exact consistent_of_kept h (DirectoryKept.writeOutletSet _ _ s)
  | full s => exact consistent_of_kept h (DirectoryKept.records (.oweFull _ s))
  | reference s => exact consistent_of_kept h (DirectoryKept.records (.oweReference _ s))
  | alarmEntry s => exact consistent_of_kept h (DirectoryKept.oweAlarm _ s)
  | _ => exact consistent_of_kept h ⟨rfl, rfl⟩

/-- R63: an office order placed in a list that has room. -/
theorem consistent_placeOffice {a : Nat} {e : Station} (body : List Byte) (he : s.station a = some e)
    (hroom : listHasRoom e = true) (h : DirectoryConsistent s) : DirectoryConsistent (placeOffice a body s) := by
  have hserial : DirectoryConsistent (nextSerial s) := consistent_of_kept h ⟨rfl, rfl⟩
  have hlist : e.pendingList.length < 4 := of_decide_eq_true hroom
  refine consistent_yard (Yard.serve a (.refl _)) (consistent_modStation (fun _ => rfl) (fun q hq hqa => ?_) hserial)
  rw [entry_eq_of_address he hq hqa h]
  simpa using hlist

theorem consistent_part (k : Part s t) (h : DirectoryConsistent s) : DirectoryConsistent t := by
  induction k with
  | trans _ _ ih ih' => exact ih' (ih h)
  | yard k => exact consistent_yard k h
  | quiet k => exact consistent_of_kept h ⟨k.directory, k.strangers⟩
  | retire s => exact consistent_of_kept h (DirectoryKept.retireHead _ _ s)
  | entry s a f hf =>
    exact consistent_modStation (fun e => (hf e).1) (fun e he _ => (hf e).2 ▸ h.listsFit e he) h
  | place s a body e he hroom => exact consistent_placeOffice body he hroom h
  | stranger s a b ha => exact consistent_hearStranger b ha h
  | forget s => exact consistent_of_sublist h (List.Sublist.refl _) List.filter_sublist
  | newStation s x ha hroom => exact consistent_storeStation x ha hroom h
  | without s => exact consistent_of_sublist h List.filter_sublist (List.Sublist.refl _)
  | hour s => exact consistent_of_kept h (DirectoryKept.takeHourDue s)
  | forcedClock s => exact consistent_of_kept h (DirectoryKept.setForced _ _ s)
  | _ => exact consistent_of_kept h ⟨rfl, rfl⟩

/-! ### Restarts -/

/-- R61, R120, R127: a restart empties the directory or the lists of its entries, and forgets the strangers. -/
theorem consistent_beginRestart (cause : RestartCause) (h : DirectoryConsistent s) :
    DirectoryConsistent (beginRestart cause s) := by
  have afresh : ∀ c, DirectoryConsistent (beginAfresh c s) := fun c =>
    consistent_of_sublist h (List.nil_sublist _) (List.nil_sublist _)
  cases cause with
  | power => exact afresh .power
  | cold => exact afresh .cold
  | warm =>
    have hforgotten : DirectoryConsistent { s with strangers := [] } :=
      consistent_of_sublist h (List.Sublist.refl _) (List.nil_sublist _)
    exact consistent_of_map hforgotten (f := Station.restarted) rfl rfl (fun _ => rfl) (fun _ _ => Nat.zero_le _)

theorem consistent_startWaiting (h : DirectoryConsistent s) : DirectoryConsistent (startWaiting s) :=
  consistent_of_map h rfl rfl (fun _ => rfl) h.listsFit

theorem startLocal_kept (s : State) : DirectoryKept s (startLocal s) := by
  unfold startLocal
  split <;> exact ⟨rfl, rfl⟩

theorem resumeClosure_yard (h : Nat) (k : Yard s t) : Yard s (resumeClosure t h) := by
  unfold resumeClosure
  split
  · exact k
  · exact (k.handOver h).serve _

/-- R174: at its completion the waiting timers start, and closes are resumed as the yard blocks do. -/
theorem consistent_completeRestart (h : DirectoryConsistent s) : DirectoryConsistent (completeRestart s) := by
  unfold completeRestart
  split
  · refine consistent_yard (Yard.foldl (fun k => resumeClosure_yard k) holderNumbers (.refl _)) ?_
    have hports : DirectoryConsistent (startPorts s) := consistent_of_kept h ⟨rfl, rfl⟩
    have hlocal := consistent_of_kept (consistent_startWaiting hports) (startLocal_kept _)
    exact consistent_of_kept hlocal ⟨rfl, rfl⟩
  · exact h

end Runs

end Sys2Proof.Directory
end

section
/-! SUPPORT. Every command but the completion of a restart is a run of the primitive changes of Part, or such a run that
a restart follows. -/

namespace Sys2Proof.Laws

open Sys2Proof Sys2Proof.Machine

/-- A run of the primitive changes, or one that a restart follows. -/
def PartOrRestart (s t : State) : Prop := Part s t ∨ ∃ u cause, Part s u ∧ t = beginRestart cause u

namespace PartOrRestart

variable {s t : State}

theorem beginPending (h : Part s t) : PartOrRestart s (beginPending t) := by
  unfold Machine.beginPending
  split
  · exact .inr ⟨t, _, h, rfl⟩
  · exact .inl h

theorem restartAfter (x : Tag) (h : Part s t) : PartOrRestart s (restartAfter x t) := by
  cases x with
  | resetAnswer => exact beginPending h
  | plain => exact .inl h
  | orderCopy a n => exact .inl h

theorem endTransmission (p : Port) (s : State) : PartOrRestart s (endTransmission p s) := by
  unfold Machine.endTransmission
  split
  · exact .inl (.refl s)
  · exact restartAfter _ (Part.transmitted p _ (.refl s))

end PartOrRestart

namespace Part

variable {s t : State}

theorem advanceClock (s : State) : Part s (advanceClock s) := by
  unfold Machine.advanceClock
  dsimp only
  split
  · exact .refl s
  · exact .clock s _ rfl

end Part

namespace PartOrRestart

variable {s t : State}

theorem ofArrival {arises : State → Bool} {act : State → State} (h : arrival arises act s = .next t)
    (ha : PartOrRestart s (act s)) : PartOrRestart s t := by
  obtain rfl | ⟨-, -, rfl⟩ := arrival_cases h
  · exact .inl (.refl _)
  · exact ha

theorem acts {arises : State → Bool} {act : State → State} (h : arrival arises act s = .next t)
    (ha : Part s (act s)) : PartOrRestart s t :=
  ofArrival h (.inl ha)

theorem performs {code : Nat} {perform : List Byte → State → Performed} (h : request code perform s = .next t)
    (hp : ∀ {s t : State} f, Part s t → Part s (perform f t).state) : PartOrRestart s t :=
  .inl (Part.ofRequest h hp)

/-- Every command but RESTART_COMPLETE, whether or not a restart has begun by its end (Part.ofExec supposes that none
has). -/
theorem ofExec {c : Instr} (h : exec c s = .next t) (hc : c ≠ .restartComplete) : PartOrRestart s t := by
  have start : Part s s := .refl s
  cases c with
  | powerOn =>
    cases h
    exact .inr ⟨s, .power, start, rfl⟩
  | restartComplete => exact absurd rfl hc
  | receptionStart p o b => exact acts h (start.startReception p o b)
  | octetArrives p o b => exact acts (show execOctetArrives p o b s = _ from h) (start.takeOctet p o b)
  | frameEnd p => exact acts (show execFrameEnd p s = _ from h) (start.endFrame p)
  | transmitStart p => exact acts h (start.chooseNext p)
  | transmissionComplete p => exact ofArrival (show execTransmissionComplete p s = _ from h) (endTransmission p s)
  | separationExpiry p => exact acts h (start.chooseNext p)
  | repeatTimerExpiry =>
    have hline := (LineOnly.refl s).sendHold.holdingTest
    exact acts (show execRepeatTimerExpiry s = _ from h) (start.line hline)
  | sample p => exact acts h (start.passField p _ (fun r b h => h.passSample r b))
  | reply p => exact acts h (start.passField p _ (fun r b h => h.passReply r b))
  | officeCommand => exact acts h start.passOffice
  | waitingTimerExpiry a => exact acts (show execWaitingTimerExpiry a s = _ from h) (start.goSilent a)
  | agingTimerExpiry a => exact acts (show execAgingTimerExpiry a s = _ from h) (.forget s a)
  | orderSend a => exact acts h (start.attemptSend a)
  | replyTimerExpiry a => exact acts h (.yard (.replyTimerExpired a (.refl s)))
  | reportSend => exact acts (show execReportSend s = _ from h) (start.sendReports _ _)
  | stepTimerExpiry d => exact acts (show execStepTimerExpiry d s = _ from h) (.yard (.stepBoundary d (.refl s)))
  | fogTimerExpiry d => exact acts (show execFogTimerExpiry d s = _ from h) (.yard (.setFog _ _ d (.refl s)))
  | clockSecond =>
    cases h
    split
    · exact .inl (.advanceClock s)
    · exact .inl start
  | wholeHour => exact acts (show execWholeHour s = _ from h) (.hour s)
  | settleTimerExpiry => exact acts (show execSettleTimerExpiry s = _ from h) (start.converter _)
  | scanTimerExpiry => exact acts (show execScanTimerExpiry s = _ from h) (start.converter _)
  | scanComplete c0 c1 c2 c3 => exact acts h (start.finishScan _)
  | loadSettings => exact performs h fun f h => h.loadSettings f
  | loadStation => exact performs h fun f h => h.loadStation f
  | dropStation => exact performs h fun f h => h.dropStation f
  | loadPoint => exact performs h fun f h => h.loadPoint f
  | dropPoint => exact performs h fun f h => h.dropPoint f
  | loadVapour => exact performs h fun f h => h.loadVapour f
  | loadLocal => exact performs h fun f h => h.loadLocal f
  | loadHolder => exact performs h fun f h => .yardRequest _ _ (fun h => h.storeHolder f) h
  | loadLift => exact performs h fun _ h => .yardRequest _ _ (fun h => h.storeLift _ _ _) h
  | holderService => exact performs h fun _ h => .yardRequest _ _ (fun h => h.setService _ _) h
  | loadDistrict => exact performs h fun f h => .yardRequest _ _ (fun h => h.storeDistrict f) h
  | loadProfile => exact performs h fun _ h => .yardRequest _ _ (fun h => h.storeProfile _ _) h
  | stepNow => exact performs h fun _ h => .yardRequest _ _ (fun h => h.stepBoundary _) h
  | districtMode => exact performs h fun _ h => .yardRequest _ _ (fun h => h.changeMode _ _) h
  | fog => exact performs h fun _ h => h.judge _ _ fun _ =>
      h.andYard (Yard.foldl (fun d h => h.setFog _ _ d) _ (.refl _))
  | loadMeter => exact performs h fun f h => .yardRequest _ _ (fun h => h.storeMeter f) h
  | setClock => exact performs h fun f h => h.setClock f
  | collectDay => exact performs h fun f h => h.collectDay f
  | read => exact performs h fun f h => h.readRequest f
  | ackAlarm => exact performs h fun f h => h.ackAlarm f
  | reset => exact .inl (Part.ofReset h)
  | resetTimerExpiry => exact ofArrival (show execResetTimerExpiry s = _ from h) (beginPending start)

end PartOrRestart

end Sys2Proof.Laws
end

section
/-! SUPPORT. The statement about what every step keeps of the directory, the stranger list and the pending lists. -/

namespace Sys2Proof.Directory

open Sys2Proof Sys2Proof.Machine Sys2Proof.Laws

variable {s t : State}

theorem consistent_exec {c : Instr} (k : exec c s = .next t) (h : DirectoryConsistent s) : DirectoryConsistent t := by
  by_cases hc : c = .restartComplete
  · subst hc
    cases k
    split
    · exact consistent_completeRestart h
    · exact h
  · obtain hpart | ⟨u, cause, hpart, rfl⟩ := PartOrRestart.ofExec k hc
    · exact consistent_part hpart h
    · exact consistent_beginRestart cause (consistent_part hpart h)

/-- Settles O56: the command taken is a run of the primitive changes, a restart that follows one, or its completion. -/
theorem directoryStaysConsistent : Obligations.DirectoryStaysConsistent := by
  intro s t k h
  unfold step at k
  split at k
  · cases k
    exact h
  · exact consistent_exec k (consistent_of_kept h ⟨rfl, rfl⟩)

end Sys2Proof.Directory
end

section
/-! SUPPORT. What a send takes from the pool and makes of its station's entry, and that a freeing leaves an entry whose
slot waits for nothing. -/

namespace Sys2Proof.Laws

open Sys2Proof Sys2Proof.Machine Sys2Proof.Claims

/-! ### Takings (R66, R151) -/

/-- R151: an URGENT taking fails only where no buffer is free. -/
theorem takeUrgent_none_iff {s : State} : takeUrgent s = none ↔ s.line.freeGeneral + s.line.freeReserve = 0 := by
  have hgeneral : takeGeneral none s = none ↔ s.line.freeGeneral = 0 := by
    simp [takeGeneral_none, mayTakeGeneral]
  unfold takeUrgent
  cases h : takeGeneral none s with
  | none =>
    have hnone := hgeneral.mp h
    by_cases hreserve : 0 < s.line.freeReserve
    · simp only [if_pos hreserve, reduceCtorEq, false_iff]
      omega
    · simp only [if_neg hreserve, true_iff]
      omega
  | some r =>
    have hfree : s.line.freeGeneral ≠ 0 := fun hz => by simp [hgeneral.mpr hz] at h
    simp only [reduceCtorEq, false_iff]
    omega

/-- R151: an URGENT taking leaves one free buffer fewer. -/
theorem takeUrgent_free {b : Buffer} {s t : State} (h : takeUrgent s = some (b, t)) :
    s.line.freeGeneral + s.line.freeReserve = t.line.freeGeneral + t.line.freeReserve + 1 := by
  obtain ⟨-, -, ⟨-, hg, hr⟩ | ⟨-, hg, hg', hr⟩⟩ := takeUrgent_counts h <;> omega

/-- R66: with too few buffers free a send takes none. -/
theorem takeUrgentMany_none {k : Nat} {s : State} (h : s.line.freeGeneral + s.line.freeReserve < k) :
    takeUrgentMany k s = none := by
  induction k generalizing s with
  | zero => exact absurd h (Nat.not_lt_zero _)
  | succ k ih =>
    unfold takeUrgentMany
    cases hb : takeUrgent s with
    | none => rfl
    | some x =>
      obtain ⟨b, v⟩ := x
      have := takeUrgent_free hb
      simp only [ih (s := v) (by omega)]

/-- R66: with enough buffers free a send takes one for each port. -/
theorem takeUrgentMany_some {k : Nat} {s : State} (h : k ≤ s.line.freeGeneral + s.line.freeReserve) :
    ∃ bs v, takeUrgentMany k s = some (bs, v) ∧ bs.length = k := by
  induction k generalizing s with
  | zero => exact ⟨[], s, rfl, rfl⟩
  | succ k ih =>
    unfold takeUrgentMany
    cases hb : takeUrgent s with
    | none =>
      have := takeUrgent_none_iff.mp hb
      omega
    | some x =>
      obtain ⟨b, v⟩ := x
      have := takeUrgent_free hb
      obtain ⟨bs, w, hw, hlength⟩ := ih (s := v) (by omega)
      exact ⟨b :: bs, w, by simp only [hw], by rw [List.length_cons, hlength]⟩

/-- R151: a taking of one copy, with a general buffer free. -/
theorem takeUrgentMany_one {s : State} (h : 0 < s.line.freeGeneral) :
    takeUrgentMany 1 s =
      some ([⟨.general, none⟩], { s with line := { s.line with freeGeneral := s.line.freeGeneral - 1 } }) := by
  simp [takeUrgentMany, takeUrgent, takeGeneral, mayTakeGeneral, h]

/-! ### Look-ups that a run of the line side leaves -/

namespace LineOnly

variable {s t : State}

theorem settings (h : LineOnly s t) : t.settings = s.settings := (congrArg State.settings h :)
theorem serial (h : LineOnly s t) : t.serial = s.serial := (congrArg State.serial h :)
theorem directory (h : LineOnly s t) : t.directory = s.directory := (congrArg State.directory h :)
theorem station (h : LineOnly s t) (a : Nat) : t.station a = s.station a := (congrArg (State.station · a) h :)

end LineOnly

/-! ### Copies (R67) -/

/-- R67, R137: an automatic order's copies are all queued; an office order's by the enables. -/
theorem copyEnabled_eq (o : Order) (p : Port) (s : State) :
    copyEnabled o p s = (!o.fromOffice || officeMaySend p s.settings.enables) := by
  unfold copyEnabled
  cases o.fromOffice <;> cases p <;> rfl

/-- R67: the buffers given back are those of the copies toward a disabled direction. -/
theorem queueCopies_given (o : Order) (n : Nat) (l : List (Port × Buffer)) (s : State) :
    (queueCopies o n l s).1 = (l.filter (fun x => !copyEnabled o x.1 s)).map (·.2) := by
  induction l generalizing s with
  | nil => rfl
  | cons x l ih =>
    obtain ⟨p, b⟩ := x
    cases hp : copyEnabled o p s with
    | false => simp [queueCopies, hp, ih]
    | true =>
      rw [queueCopies, if_pos hp, ih, List.filter_cons_of_neg (by simp [hp])]
      rfl

/-- R67: the copies queued are those toward the enabled directions. -/
theorem queueCopies_queued (o : Order) (n : Nat) {ports : List Port} {bs : List Buffer}
    (h : bs.length = ports.length) (s : State) :
    bs.length - (queueCopies o n (ports.zip bs) s).1.length = (ports.filter (copyEnabled o · s)).length := by
  have hgiven : (queueCopies o n (ports.zip bs) s).1.length = ports.countP (fun p => !copyEnabled o p s) := by
    conv => rhs; rw [← List.map_fst_zip h.ge, List.countP_map]
    rw [queueCopies_given, List.length_map, List.countP_eq_length_filter]
    rfl
  have hall := List.length_eq_countP_add_countP (copyEnabled o · s) (l := ports)
  rw [hgiven, ← List.countP_eq_length_filter]
  simp only [decide_not, Bool.decide_eq_true] at hall
  omega

/-! ### Sends (R66, R67) -/

theorem station_address {a : Nat} {s : State} {e : Station} (h : s.station a = some e) : e.address = a := by
  simpa using List.find?_some h

theorem modStation_station_self {a : Nat} {f : Station → Station} {s : State} {e : Station}
    (hf : ∀ e, (f e).address = e.address) (he : s.station a = some e) : (s.modStation a f).station a = some (f e) := by
  rw [modStation_station _ _ _ _ hf, he, Option.map_some, if_pos (beq_iff_eq.mpr (station_address he))]

theorem modStation_station_ne {a b : Nat} {f : Station → Station} (hf : ∀ e, (f e).address = e.address) (hab : a ≠ b)
    (s : State) : (s.modStation a f).station b = s.station b := by
  rw [modStation_station _ _ _ _ hf]
  cases hs : s.station b with
  | none => rfl
  | some q => simp [station_address hs, hab.symm]

/-- R66: the order that waits in a station's slot takes the buffers its branch calls for. -/
theorem takeForSend_of_waiting {a : Nat} {s : State} {e : Station} {o : Order} (he : s.station a = some e)
    (ho : waitingOrder e = some o) :
    takeForSend a s = (takeUrgentMany (copyPorts e.branch).length s).map (fun x => (e, o, x.1, x.2)) := by
  unfold takeForSend
  simp only [he, ho]
  cases takeUrgentMany (copyPorts e.branch).length s <;> rfl

/-- R66: buffers are taken for a station whose slot waits, out of the pool alone. -/
theorem takeForSend_some {a : Nat} {s v : State} {e : Station} {o : Order} {bs : List Buffer}
    (h : takeForSend a s = some (e, o, bs, v)) : s.station a = some e ∧ waitingOrder e = some o ∧ LineOnly s v := by
  unfold takeForSend at h
  split at h
  · cases h
  · rename_i q hq
    split at h
    · cases h
    · rename_i p hp
      split at h
      · cases h
      · rename_i hv
        cases h
        exact ⟨hq, hp, .takeUrgentMany hv (.refl s)⟩

/-- R66, R67: a send made writes the slot of its station. -/
theorem makeSend_station {a : Nat} {s : State} {e : Station} (o : Order) {bs : List Buffer} (he : s.station a = some e)
    (hbs : bs.length = (copyPorts e.branch).length) :
    let k := ((copyPorts e.branch).filter (copyEnabled o · s)).length
    let sent := { o with sends := o.sends + 1 }
    (makeSend e o bs s).2.station a =
      some { e with slot := if k = 0 then .awaitingReply sent e.replyTime else .onLine sent s.serial k } := by
  intro k sent
  have hqueued : bs.length - (queueCopies sent s.serial ((copyPorts e.branch).zip bs) (nextSerial s)).1.length = k :=
    queueCopies_queued sent s.serial hbs (nextSerial s)
  have hline : (queueCopies sent s.serial ((copyPorts e.branch).zip bs) (nextSerial s)).2.station a = some e :=
    ((LineOnly.queueCopies sent s.serial _ (.refl _)).station a).trans he
  rw [← hqueued]
  exact (congrArg (State.station _) (station_address he).symm).trans
    (modStation_station_self (a := e.address) (fun _ => rfl) (station_address he ▸ hline))

/-- R67: the one copy toward an enabled port is queued, and no buffer is given back. -/
theorem makeSend_one {s : State} {e : Station} {o : Order} {p : Port} (hports : copyPorts e.branch = [p])
    (henabled : copyEnabled o p s = true) (b : Buffer) :
    makeSend e o [b] s = ([],
      (enqueue p true
          ⟨b, frame o.station (if o.fromOffice then 0 else 240) 2 o.body, .orderCopy o.station s.serial⟩
          (nextSerial s)).modStation e.address
        (fun x => { x with slot := .onLine { o with sends := o.sends + 1 } s.serial 1 })) := by
  have hcopy : queueCopies { o with sends := o.sends + 1 } s.serial [(p, b)] (nextSerial s) = ([], enqueue p true
      ⟨b, frame o.station (if o.fromOffice then 0 else 240) 2 o.body, .orderCopy o.station s.serial⟩ (nextSerial s)) :=
    if_pos henabled
  simp only [makeSend, hports, List.zip_cons_cons, List.zip_nil_left, hcopy]
  rfl

/-- R66, R67: a send made leaves the other stations' entries. -/
theorem makeSend_station_other {a : Nat} {s : State} {e : Station} (o : Order) (bs : List Buffer) (ha : e.address ≠ a) :
    (makeSend e o bs s).2.station a = s.station a := by
  have hline := (LineOnly.queueCopies { o with sends := o.sends + 1 } s.serial ((copyPorts e.branch).zip bs)
    (.refl (nextSerial s))).station a
  refine (?_ : (makeSend e o bs s).2.station a = _).trans hline
  refine modStation_station_ne ?_ ha _
  exact fun _ => rfl

/-! ### Report parts (R167) -/

theorem retireHead_station (e : Entry) (rest : List Entry) (s : State) (a : Nat) :
    (retireHead e rest s).station a = s.station a := by
  unfold retireHead
  dsimp only
  split <;> rfl

theorem sendPart_station {test : Bool} {s t : State} (h : sendPart test s = some t) (a : Nat) :
    t.station a = s.station a := by
  unfold sendPart at h
  split at h
  · cases h
  · dsimp only at h
    split at h
    · cases h
      exact retireHead_station _ _ s a
    · split at h
      · cases h
      · rename_i v hv
        have hline : LineOnly s (if test = true then holdingTest v else v) := by
          split
          · exact (Part.takeForReport hv).holdingTest
          · exact Part.takeForReport hv
        split at h
        · cases h
          exact (retireHead_station _ _ _ a).trans (hline.station a)
        · cases h
          exact hline.station a

theorem sendReports_station (test : Bool) (n : Nat) (s : State) (a : Nat) :
    (sendReports test n s).station a = s.station a := by
  induction n generalizing s with
  | zero => rfl
  | succ n ih =>
    unfold sendReports
    split
    · rfl
    · split
      · rename_i hv
        rw [ih, sendPart_station hv]
      · unfold claimForBacklog
        split <;> rfl

/-! ### Freeings (R153, R154) -/

section Freeing

variable {a : Nat} {e : Station}

/-- R153: an offer makes no send of a station whose slot does not wait. -/
theorem offerClaim_station {c : Claim} {s t : State} {bs : List Buffer} (h : offerClaim c s = some (bs, t))
    (he : s.station a = some e) (hwaits : waitingOrder e = none) : t.station a = some e := by
  cases c with
  | send b =>
    simp only [offerClaim] at h
    split at h
    · cases h
    · rename_i q o bs' v hv
      obtain ⟨hq, ho, hline⟩ := takeForSend_some hv
      have hother : q.address ≠ a := by
        rw [station_address hq]
        rintro rfl
        rw [he] at hq
        cases hq
        simp [hwaits] at ho
      have ht : (makeSend q o bs' (withdrawClaim (.send b) v)).2 = t := congrArg Prod.snd (Option.some.inj h)
      rw [← ht, makeSend_station_other o bs' hother]
      exact (hline.station a).trans he
  | backlog =>
    simp only [offerClaim] at h
    split at h
    · cases h
    · rename_i v hv
      cases h
      rw [sendReports_station]
      exact (sendPart_station hv a).trans he

theorem offerPass_station (l : List Claim) {s : State} (he : s.station a = some e) (hwaits : waitingOrder e = none) :
    (offerPass l s).2.station a = some e := by
  induction l generalizing s with
  | nil => exact he
  | cons c l ih =>
    unfold offerPass
    split
    · split
      · exact ih he
      · rename_i hv
        exact ih (offerClaim_station hv he hwaits)
      · rename_i hv
        exact offerClaim_station hv he hwaits
    · exact ih he

theorem foldl_buffers_station {f : State → Buffer → State}
    (hf : ∀ {s : State} b, s.station a = some e → (f s b).station a = some e) (bs : List Buffer) {s : State}
    (he : s.station a = some e) : (bs.foldl f s).station a = some e := by
  induction bs generalizing s with
  | nil => exact he
  | cons b bs ih => exact ih (hf b he)

theorem freeing_station (n : Nat) (b : Buffer) {s : State} (he : s.station a = some e)
    (hwaits : waitingOrder e = none) : (freeing n b s).station a = some e := by
  induction n generalizing b s with
  | zero => exact ((LineOnly.refl s).releaseBuffer b).holdingTest.station a |>.trans he
  | succ n ih =>
    have hreleased : (releaseBuffer b s).station a = some e := (((LineOnly.refl s).releaseBuffer b).station a).trans he
    exact ((LineOnly.refl _).holdingTest.station a).trans
      (foldl_buffers_station (fun b h => ih b h) _ (offerPass_station _ hreleased hwaits))

/-- R153, R154: buffers freed leave the entry of a station whose slot does not wait. -/
theorem freeBuffers_station (bs : List Buffer) {s : State} (he : s.station a = some e)
    (hwaits : waitingOrder e = none) : (freeBuffers bs s).station a = some e :=
  foldl_buffers_station (fun b h => freeing_station _ b h hwaits) bs he

end Freeing

end Sys2Proof.Laws
end

section
/-! SUPPORT. The statement about ORDER_SEND. -/

namespace Sys2Proof.Sends

open Sys2Proof Sys2Proof.Machine Sys2Proof.Claims Sys2Proof.Laws

/-- R66: station a has a send of order o due, with these orders waiting behind it: in its slot without a claim, or at
the head of its list under an EMPTY slot. -/
def SendDue (a : Nat) (e : Station) (o : Order) (rest : List Order) (s : State) : Prop :=
  e.slot = .bufferWait o ∧ Claim.send a ∉ s.claims ∧ rest = e.pendingList ∨ e.slot = .empty ∧ e.pendingList = o :: rest

section Due

variable {a : Nat} {s : State} {e : Station} {o : Order} {rest : List Order}

theorem sendIsDue_of_due (he : s.station a = some e) (h : SendDue a e o rest s) : sendIsDue a s = true := by
  unfold sendIsDue
  obtain ⟨hslot, hclaim, -⟩ | ⟨hslot, hlist⟩ := h
  · simpa [he, hslot] using hclaim
  · simp [he, hslot, hlist]

/-- R66: the slot holds the order once the head is taken. -/
theorem takeHead_of_due (h : SendDue a e o rest s) :
    e.takeHead = { e with slot := .bufferWait o, pendingList := rest } := by
  obtain ⟨_, _, _, _, _, _, _, _, _, _, slot, list⟩ := e
  obtain ⟨hslot, -, hrest⟩ | ⟨hslot, hlist⟩ := h
  · subst hslot hrest
    rfl
  · subst hslot hlist
    rfl

theorem headTaken_station (he : s.station a = some e) (h : SendDue a e o rest s) :
    (headTaken a s).station a = some { e with slot := .bufferWait o, pendingList := rest } := by
  rw [← serve_eq_headTaken, ← takeHead_of_due h]
  exact modStation_station_self (fun e => by rw [Yard.takeHead_only]) he

theorem takeForSend_of_due (he : s.station a = some e) (h : SendDue a e o rest s) :
    takeForSend a (headTaken a s) = (takeUrgentMany (copyPorts e.branch).length (headTaken a s)).map
      (fun x => ({ e with slot := .bufferWait o, pendingList := rest }, o, x.1, x.2)) :=
  takeForSend_of_waiting (headTaken_station he h) rfl

/-- R66: a send that does not find its buffers waits with a claim. -/
theorem attemptSend_waits (he : s.station a = some e) (h : SendDue a e o rest s)
    (hbuffers : takeUrgentMany (copyPorts e.branch).length (headTaken a s) = none) :
    attemptSend a s = { headTaken a s with claims := (headTaken a s).claims ++ [.send a] } := by
  unfold attemptSend
  simp only [serve_eq_headTaken, takeForSend_of_due he h, hbuffers, Option.map_none]

/-- R66, R67: a send that finds its buffers is made, and those it gives back are freed. -/
theorem attemptSend_makes (he : s.station a = some e) (h : SendDue a e o rest s) {bs : List Buffer} {v : State}
    (hbuffers : takeUrgentMany (copyPorts e.branch).length (headTaken a s) = some (bs, v)) :
    let m := makeSend { e with slot := .bufferWait o, pendingList := rest } o bs (holdingTest v)
    attemptSend a s = freeBuffers m.1 m.2 := by
  unfold attemptSend
  simp only [serve_eq_headTaken, takeForSend_of_due he h, hbuffers, Option.map_some]

/-- R66, R67: the entry of the station after its send is made. -/
theorem attemptSend_station (he : s.station a = some e) (h : SendDue a e o rest s)
    (hfree : (copyPorts e.branch).length ≤ s.line.freeGeneral + s.line.freeReserve) :
    let k := ((copyPorts e.branch).filter (fun p => !o.fromOffice || officeMaySend p s.settings.enables)).length
    let sent := { o with sends := o.sends + 1 }
    (attemptSend a s).station a = some { e with
      slot := if k = 0 then .awaitingReply sent e.replyTime else .onLine sent s.serial k, pendingList := rest } := by
  intro k sent
  obtain ⟨bs, v, hbuffers, hlength⟩ := takeUrgentMany_some (s := headTaken a s) hfree
  have hline : LineOnly (headTaken a s) (holdingTest v) := (LineOnly.takeUrgentMany hbuffers (.refl _)).holdingTest
  have hsettings : (holdingTest v).settings = s.settings := hline.settings
  have hserial : (holdingTest v).serial = s.serial := hline.serial
  have hentry := (hline.station a).trans (headTaken_station he h)
  have hmade := makeSend_station o hentry hlength
  simp only [copyEnabled_eq, hsettings, hserial] at hmade
  rw [attemptSend_makes he h hbuffers]
  refine freeBuffers_station _ hmade ?_
  unfold waitingOrder
  dsimp only
  split_ifs <;> rfl

/-- R67: the one copy of an order toward an enabled port is queued. -/
theorem attemptSend_one (he : s.station a = some e) (h : SendDue a e o rest s) {p : Port}
    (hports : copyPorts e.branch = [p]) (henabled : (!o.fromOffice || officeMaySend p s.settings.enables) = true)
    (hfree : 0 < s.line.freeGeneral) :
    let t := headTaken a s
    attemptSend a s =
      (enqueue p true
          ⟨⟨.general, none⟩, frame o.station (if o.fromOffice then 0 else 240) 2 o.body, .orderCopy o.station s.serial⟩
          { holdingTest { t with line := { t.line with freeGeneral := t.line.freeGeneral - 1 } } with
            serial := s.serial + 1 }).modStation a
        (fun x => { x with slot := .onLine { o with sends := o.sends + 1 } s.serial 1 }) := by
  intro t
  have hbuffers := takeUrgentMany_one (s := t) hfree
  generalize ({ t with line := { t.line with freeGeneral := t.line.freeGeneral - 1 } } : State) = v at hbuffers ⊢
  have hline : LineOnly t (holdingTest v) := (LineOnly.takeUrgentMany hbuffers (.refl _)).holdingTest
  have hsettings : (holdingTest v).settings = s.settings := hline.settings
  have hserial : (holdingTest v).serial = s.serial := hline.serial
  have hcopy : copyEnabled o p (holdingTest v) = true := by rw [copyEnabled_eq, hsettings, henabled]
  rw [attemptSend_makes he h (by rw [hports]; exact hbuffers),
    makeSend_one (e := { e with slot := .bufferWait o, pendingList := rest }) hports hcopy]
  simp only [nextSerial, hserial, station_address he]
  rfl

end Due

/-- Settles O22: the waiting order takes its buffers and is sent, or claims them; the buffers its send gives back are
freed with offers that leave its own entry. -/
theorem orderSendActs : Obligations.OrderSendActs := by
  intro a s e o rest hr he hdue ports enabled k sent t
  have hports : ports = copyPorts e.branch := by cases hb : e.branch <;> simp [ports, copyPorts, hb]
  have hexec : exec (.orderSend a) s = .next (attemptSend a s) := arrival_acts hr (sendIsDue_of_due he hdue)
  rw [hexec]
  refine ⟨fun hfew => ?_, fun henough => ⟨attemptSend a s, _, rfl, attemptSend_station he hdue (hports ▸ henough), rfl,
    by rw [← hports]⟩, fun p hp henabled hfree => ?_⟩
  · rw [attemptSend_waits he hdue (takeUrgentMany_none (by rw [← hports]; exact hfew))]
  · rw [attemptSend_one he hdue (hports.symm.trans hp) henabled hfree]

end Sys2Proof.Sends
end

section
/-! SUPPORT. The statement's words about RELEASEs, orders removed and step boundaries, each tied to the model's
operation of the same meaning. -/

namespace Sys2Proof.Laws

open Sys2Proof Sys2Proof.Machine Sys2Proof.Claims

/-! ### Words: orders placed and removed (R64, R65, R81) -/

/-- R64: an automatic RELEASE takes the place of the automatic SETs and RELEASEs waiting. -/
theorem placeRelease_eq_releasePlaced (a d : Nat) (s : State) : placeRelease a d s = releasePlaced a d s := by
  have kept : (fun q : Order => !(!q.fromOffice && (q.isSet || q.isRelease)))
      = fun q => q.origin == .office || !(q.code == some 3 || q.code == some 4) := by
    funext q
    rw [Bool.not_and, Bool.not_not]
    rfl
  unfold placeRelease releasePlaced
  cases s.station a with
  | none => rfl
  | some e =>
    simp only [serve_eq_headTaken, makeRoom_eq_roomMade, kept]
    rfl

/-- R65: a district's RELEASE, for its governor station if that is configured. -/
theorem issueRelease_eq_releaseIssued (d : Nat) (s : State) : issueRelease d s = releaseIssued d s := by
  unfold issueRelease releaseIssued
  cases s.district d with
  | none => rfl
  | some r =>
    dsimp only
    cases h : s.station r.governor with
    | none => rfl
    | some e => simp only [placeRelease_eq_releasePlaced, reduceCtorEq, if_false]

theorem dropAutomaticSets_eq_automaticSetsRemoved (a : Nat) (s : State) :
    dropAutomaticSets a s = automaticSetsRemoved a s := by
  have kept : (fun o : Order => !(o.isSet && !o.fromOffice)) = fun q => q.origin == .office || q.code != some 3 := by
    funext q
    rw [Bool.not_and, Bool.not_not, Bool.or_comm]
    rfl
  unfold dropAutomaticSets automaticSetsRemoved
  cases s.station a with
  | none => rfl
  | some e =>
    dsimp only
    rw [kept]
    rfl

/-- Every order of a list that is an office order is superseded. -/
theorem foldl_supersede_of_office (cause : SupersessionCause) {l : List Order} (h : ∀ o ∈ l, o.origin = .office)
    (s : State) : l.foldl (supersede cause) s = l.foldl (fun t q => supersededOwed cause q t) s := by
  refine List.foldl_ext _ _ _ fun t o ho => ?_
  rw [supersede_eq, if_pos (h o ho)]

theorem supersedeOfficeOrders_eq_officeOrdersSuperseded (a : Nat) (s : State) :
    supersedeOfficeOrders a s = officeOrdersSuperseded a s := by
  unfold supersedeOfficeOrders officeOrdersSuperseded
  cases s.station a with
  | none => rfl
  | some e =>
    refine foldl_supersede_of_office .governor (fun o ho => ?_) _
    have hnamed := (List.mem_filter.mp ho).2
    exact (fromOffice_iff o).mp (Bool.and_eq_true_iff.mp hnamed).1

/-! ### Words: step boundaries (R85) -/

theorem stepBoundary_eq_boundary (d : Nat) (s : State) : stepBoundary d s = boundary d s := by
  unfold stepBoundary boundary
  cases s.district d with
  | none => rfl
  | some r => cases hpending : r.nextPending <;> simp [promoteProfile, hpending]

end Sys2Proof.Laws
end

section
/-! SUPPORT. The statement about DISTRICT-MODE. -/

namespace Sys2Proof.Districts

open Sys2Proof Sys2Proof.Machine Sys2Proof.Claims Sys2Proof.Laws Sys2Proof.Points

/-- R81: a district already in the mode is left. -/
theorem changeMode_already {d : Nat} {q : District} {s : State} (hq : s.district d = some q) :
    changeMode d q.mode s = s := by
  simp only [changeMode, hq, if_true]

/-- R81: RELEASED is entered. -/
theorem changeMode_released {d : Nat} {q : District} {s : State} (hq : s.district d = some q)
    (hmode : q.mode ≠ .released) :
    changeMode d .released s = oweReference (.district d)
      (releaseIssued d (setMode d .released (clearAlarm ⟨.districtShort, d, none⟩ s))) := by
  simp only [changeMode, hq, if_neg hmode, enterReleased, issueRelease_eq_releaseIssued]
  rfl

/-- R81: MANUAL is entered, from AUTO or from RELEASED. -/
theorem changeMode_manual {d : Nat} {q : District} {s : State} (hq : s.district d = some q)
    (hmode : q.mode ≠ .manual) :
    changeMode d .manual s = oweReference (.district d)
      (if q.mode = .auto then
        setMode d .manual (automaticSetsRemoved q.governor (clearAlarm ⟨.districtShort, d, none⟩ s))
      else setMode d .manual s) := by
  have hentered : enterManual d q s =
      if q.mode = .auto then
        setMode d .manual (automaticSetsRemoved q.governor (clearAlarm ⟨.districtShort, d, none⟩ s))
      else setMode d .manual s := by
    unfold enterManual
    rw [dropAutomaticSets_eq_automaticSetsRemoved]
    cases q.mode <;> rfl
  simp only [changeMode, hq, if_neg hmode, hentered]
  rfl

/-- R81: AUTO is entered. -/
theorem changeMode_auto {d : Nat} {q : District} {s : State} (hq : s.district d = some q) (hmode : q.mode ≠ .auto) :
    changeMode d .auto s = oweReference (.district d)
      (boundary d
        (setMode d .auto ((officeOrdersSuperseded q.governor s).putDistrict d { q with correction := 0 }))) := by
  simp only [changeMode, hq, if_neg hmode, enterAuto, supersedeOfficeOrders_eq_officeOrdersSuperseded,
    stepBoundary_eq_boundary]
  rfl

/-- R81: the profiles that keep a district out of AUTO. -/
theorem profilesForbidAuto_iff (q : District) :
    profilesForbidAuto q = true ↔ q.activeProfile = [] ∨ q.nextPending = true ∧ q.nextProfile = [] := by
  simp [profilesForbidAuto]

/-- R81: the first of the five checks of DISTRICT-MODE that fails, where the first three pass. -/
theorem districtMode_of_loaded {f : List Byte} {m : Mode} {q : District} {s : State} (hlength : f.length = 2)
    (hm : modeOf (octetAt f 1) = some m) (hq : s.district (octetAt f 0) = some q) :
    districtMode f s =
      if m = .auto ∧ (q.activeProfile = [] ∨ q.nextPending = true ∧ q.nextProfile = []) then ⟨.notAllowed, [], s⟩
      else if m = .auto ∧ s.clock.valid = false then ⟨.noClock, [], s⟩
      else ⟨.accepted, [], changeMode (octetAt f 0) m s⟩ := by
  have hnumber := recordGet_some_le hq
  have hinside : outside 1 6 (octetAt f 0) = false := by simp [outside]; omega
  have hprofiles : (m == .auto && profilesForbidAuto q) = true ↔
      m = .auto ∧ (q.activeProfile = [] ∨ q.nextPending = true ∧ q.nextProfile = []) := by
    rw [Bool.and_eq_true, beq_iff_eq, profilesForbidAuto_iff]
  have hclock : (m == .auto && !s.clock.valid) = true ↔ m = .auto ∧ s.clock.valid = false := by
    rw [Bool.and_eq_true, beq_iff_eq, Bool.not_eq_true']
  simp only [districtMode, judge, firstFailure_cons, firstFailure_nil, hlength, hm, hq, hinside, Option.getD_some,
    Option.isNone_some, Option.any_some, bne_self_eq_false, Bool.or_self, Bool.false_eq_true, if_false, hprofiles,
    hclock]
  split_ifs <;> rfl

/-- Settles O45: the first check that fails, or by the mode carried and the mode the district has. -/
theorem districtModeActs : Obligations.DistrictModeActs := by
  intro f r s u h d answer short put
  have performed : ∀ {result : ResultCode} {v : State}, districtMode f u = ⟨result, [], v⟩ → answer result v :=
    request_of_performed h (by decide) (by decide)
  have hformat : (f.length != 2 || (modeOf (octetAt f 1)).isNone) = true ↔
      f.length ≠ 2 ∨ modeOf (octetAt f 1) = none := by simp
  refine ⟨fun hbad => performed (judge_fails (firstFailure_here (hformat.mpr hbad)) _ _), fun m hlength hm => ?_⟩
  have hgood : ∀ rest, firstFailure ((_, .badFormat) :: rest) = firstFailure rest := fun rest =>
    firstFailure_next (mt hformat.mp (by simp [hlength, hm]))
  refine ⟨fun hd => performed (judge_fails ((hgood _).trans (firstFailure_here (by simpa [outside] using hd))) _ _),
    fun hlo hhi hn => performed (judge_fails ((hgood _).trans ((firstFailure_next (by simp [outside]; omega)).trans
      (firstFailure_here (by simpa using hn)))) _ _), fun q hq => ?_⟩
  have hloaded := districtMode_of_loaded hlength hm hq
  split
  · rename_i hprofiles
    exact performed (hloaded.trans (if_pos hprofiles))
  · rename_i hprofiles
    rw [if_neg hprofiles] at hloaded
    split
    · rename_i hclock
      exact performed (hloaded.trans (if_pos hclock))
    · rename_i hclock
      rw [if_neg hclock] at hloaded
      split
      · rename_i hmode
        rw [← hmode, changeMode_already hq] at hloaded
        exact performed hloaded
      · rename_i hmode
        cases m with
        | released => exact performed (hloaded.trans (by rw [changeMode_released hq hmode]; rfl))
        | manual => exact performed (hloaded.trans (by rw [changeMode_manual hq hmode]; rfl))
        | auto => exact performed (hloaded.trans (by rw [changeMode_auto hq hmode]; rfl))

end Sys2Proof.Districts
end

section
/-! SUPPORT. The operations that leave every District Record as it stands. -/

namespace Sys2Proof.Laws

open Sys2Proof Sys2Proof.Machine

/-! ### The line side, alarms and reports -/

theorem LineOnly.districts {s t : State} (h : LineOnly s t) : t.districts = s.districts := (congrArg State.districts h :)
theorem RecordsOnly.districts {s t : State} (h : RecordsOnly s t) : t.districts = s.districts :=
  (congrArg State.districts h :)

/-- The District Records as they stand give the same look-ups. -/
theorem district_of_districts {s t : State} (e : t.districts = s.districts) (d : Nat) : t.district d = s.district d := by
  rw [State.district, e, ← State.district]

/-- A fold of operations that leave the districts leaves them. -/
theorem foldl_districts {α : Type} {f : State → α → State} (hf : ∀ s x, (f s x).districts = s.districts) (l : List α)
    (s : State) : (l.foldl f s).districts = s.districts := by
  induction l generalizing s with
  | nil => rfl
  | cons x l ih => exact (ih _).trans (hf s x)

section Frames

variable (s : State)

@[simp] theorem raiseAlarm_districts (key : AlarmKey) : (raiseAlarm key s).districts = s.districts :=
  (RecordsOnly.raiseAlarm key s).districts
@[simp] theorem clearAlarm_districts (key : AlarmKey) : (clearAlarm key s).districts = s.districts :=
  (RecordsOnly.clearAlarm key s).districts
@[simp] theorem dropAlarm_districts (r : Alarm) (b : Bool) : (dropAlarm r b s).districts = s.districts :=
  (RecordsOnly.dropAlarm r b s).districts
@[simp] theorem settleAlarmOverflow_districts : (settleAlarmOverflow s).districts = s.districts :=
  (RecordsOnly.settleAlarmOverflow s).districts
@[simp] theorem oweFull_districts (r : FullReport) : (oweFull r s).districts = s.districts :=
  (RecordsOnly.oweFull r s).districts
@[simp] theorem oweReference_districts (ref : RecordRef) : (oweReference ref s).districts = s.districts :=
  (RecordsOnly.oweReference ref s).districts
@[simp] theorem oweSetpoint_districts (d : Nat) : (oweSetpoint d s).districts = s.districts :=
  oweReference_districts s _
@[simp] theorem oweHolderState_districts (h : Nat) : (oweHolderState h s).districts = s.districts :=
  oweReference_districts s _
@[simp] theorem oweSuperseded_districts (o : Order) (cause : SupersessionCause) :
    (oweSuperseded o cause s).districts = s.districts :=
  oweFull_districts s _
@[simp] theorem oweRefusal_districts (a : Nat) (body : List Byte) (x : RefusalReason) :
    (oweRefusal a body x s).districts = s.districts :=
  oweFull_districts s _
@[simp] theorem supersede_districts (cause : SupersessionCause) (o : Order) :
    (supersede cause s o).districts = s.districts :=
  (RecordsOnly.supersede cause s o).districts
@[simp] theorem supersede_foldl_districts (cause : SupersessionCause) (l : List Order) :
    (l.foldl (supersede cause) s).districts = s.districts :=
  foldl_districts (fun s => supersede_districts s cause) l s

/-! ### Orders -/

@[simp] theorem nextSerial_districts : (nextSerial s).districts = s.districts := rfl
@[simp] theorem withdrawClaim_districts (c : Claim) : (withdrawClaim c s).districts = s.districts := rfl
@[simp] theorem emptySlot_districts (a : Nat) : (emptySlot a s).districts = s.districts := rfl
@[simp] theorem serve_districts (a : Nat) : (serve a s).districts = s.districts := rfl
@[simp] theorem setList_districts (a : Nat) (l : List Order) : (setList a l s).districts = s.districts := rfl
@[simp] theorem placeOffice_districts (a : Nat) (body : List Byte) : (placeOffice a body s).districts = s.districts := rfl

@[simp] theorem makeRoom_districts (l : List Order) : (makeRoom l s).2.districts = s.districts := by
  unfold makeRoom
  split
  · rfl
  · split <;> simp

@[simp] theorem placeSet_districts (a d v : Nat) : (placeSet a d v s).districts = s.districts := by
  unfold placeSet
  split
  · rfl
  · dsimp only
    split <;> simp

@[simp] theorem placeRelease_districts (a d : Nat) : (placeRelease a d s).districts = s.districts := by
  unfold placeRelease
  split <;> simp

@[simp] theorem placeClose_districts (a v : Nat) (cause : SupersessionCause) :
    (placeClose a v cause s).districts = s.districts := by
  unfold placeClose
  split
  · rfl
  · dsimp only
    rw [setList_districts]
    split
    · rw [supersede_foldl_districts, nextSerial_districts]
    · rfl

@[simp] theorem abandonOpen_districts (a : Nat) (cause : SupersessionCause) :
    (abandonOpen a cause s).2.districts = s.districts := by
  unfold abandonOpen
  split
  · rfl
  · split <;> simp

@[simp] theorem removeOpens_districts (a : Nat) (cause : SupersessionCause) :
    (removeOpens a cause s).districts = s.districts := by
  unfold removeOpens
  split
  · rfl
  · exact foldl_districts (fun s o => oweSuperseded_districts s o cause) _ _

@[simp] theorem withdrawOpens_districts (a : Nat) (cause : SupersessionCause) :
    (withdrawOpens a cause s).2.districts = s.districts := by
  simp [withdrawOpens]

@[simp] theorem withdrawFromNewStation_districts (a : Nat) : (withdrawFromNewStation a s).districts = s.districts := by
  simp [withdrawFromNewStation]

@[simp] theorem issueRelease_districts (d : Nat) : (issueRelease d s).districts = s.districts := by
  unfold issueRelease
  split
  · rfl
  · split <;> simp

@[simp] theorem supplyStateChanged_districts (d : Nat) (supplied : Bool) :
    (supplyStateChanged d supplied s).districts = s.districts := by
  unfold supplyStateChanged
  cases supplied <;> simp

@[simp] theorem judgeShort_districts (d : Nat) (r : District) (bounded : Nat) :
    (judgeShort d r bounded s).districts = s.districts := by
  unfold judgeShort
  split_ifs <;> simp

@[simp] theorem dropAutomaticSets_districts (a : Nat) : (dropAutomaticSets a s).districts = s.districts := by
  unfold dropAutomaticSets
  split <;> simp

@[simp] theorem supersedeOfficeOrders_districts (a : Nat) : (supersedeOfficeOrders a s).districts = s.districts := by
  unfold supersedeOfficeOrders
  split <;> simp

@[simp] theorem copyTransmitted_districts (a n : Nat) : (copyTransmitted a n s).districts = s.districts := rfl

/-! ### The Account Unit and the day books -/

@[simp] theorem modOpenHour_districts (f : Hour → Hour) : (modOpenHour f s).districts = s.districts := rfl
@[simp] theorem handActive_districts (d v : Nat) : (handActive d v s).districts = s.districts := rfl
@[simp] theorem handTellTale_districts (d : Nat) (v : Int) : (handTellTale d v s).districts = s.districts := rfl
@[simp] theorem handStockPartial_districts : (handStockPartial s).districts = s.districts := rfl
@[simp] theorem openPresentHour_districts : (openPresentHour s).districts = s.districts := rfl
@[simp] theorem openBook_districts (stock : Nat) : (openBook stock s).districts = s.districts := rfl
@[simp] theorem flagClockSet_districts : (flagClockSet s).districts = s.districts := rfl

@[simp] theorem account_districts (m : Nat) (r : Meter) (v e : Nat) (f : HourFlags) :
    (account m r v e f s).districts = s.districts := by
  unfold account
  split <;> rfl

@[simp] theorem takeCount_districts (m c : Nat) : (takeCount m c s).districts = s.districts := by
  unfold takeCount
  split
  · rfl
  · dsimp only
    split
    · rfl
    · split <;> simp

@[simp] theorem loseCount_districts (m : Nat) : (loseCount m s).districts = s.districts := by
  unfold loseCount
  split <;> simp

@[simp] theorem takePeriod_districts (m p : Nat) : (takePeriod m p s).districts = s.districts := by
  unfold takePeriod
  split
  · rfl
  · dsimp only
    split <;> rfl

@[simp] theorem meterCountUpdate_districts (u : PointUpdate) (m : Nat) :
    (meterCountUpdate u m s).districts = s.districts := by
  unfold meterCountUpdate
  split <;> simp

@[simp] theorem meterPeriodUpdate_districts (u : PointUpdate) (m : Nat) :
    (meterPeriodUpdate u m s).districts = s.districts := by
  unfold meterPeriodUpdate
  split <;> simp

theorem meterUpdate_districts (u : PointUpdate) (m : Nat) : (meterUpdate u s m).districts = s.districts := by
  unfold meterUpdate
  split
  · rfl
  · dsimp only
    split_ifs <;> simp

@[simp] theorem accountUpdate_districts (u : PointUpdate) : (accountUpdate u s).districts = s.districts :=
  foldl_districts (fun s => meterUpdate_districts s u) _ s

theorem tellTaleUpdate_districts (u : PointUpdate) (d : Nat) : (tellTaleUpdate u s d).districts = s.districts := by
  unfold tellTaleUpdate
  split
  · rfl
  · split
    · split <;> rfl
    · rfl

@[simp] theorem schedulerUpdate_districts (u : PointUpdate) : (schedulerUpdate u s).districts = s.districts :=
  foldl_districts (fun s => tellTaleUpdate_districts s u) _ s

theorem addUnclocked_districts (m : Nat) : (addUnclocked s m).districts = s.districts := by
  unfold addUnclocked
  split <;> rfl

@[simp] theorem oweHourClose_districts (b : DayBook) (n : Nat) : (oweHourClose b n s).districts = s.districts :=
  (oweReference_districts _ _).trans (foldl_districts (fun s _ => oweReference_districts s _) _ s)

@[simp] theorem closeOpenHour_districts (b : Bool) : (closeOpenHour b s).districts = s.districts := by
  unfold closeOpenHour
  split
  · rfl
  · split <;> simp

@[simp] theorem dayClose_districts : (dayClose s).districts = s.districts := by
  unfold dayClose
  split
  · rfl
  · dsimp only
    rw [oweReference_districts, openBook_districts]
    split
    · split <;> simp
    · rfl

@[simp] theorem takeWholeHour_districts (hour : Nat) : (takeWholeHour hour s).districts = s.districts := by
  unfold takeWholeHour
  split
  · rfl
  · dsimp only
    split_ifs <;> simp

@[simp] theorem takeHourDue_districts : (takeHourDue s).districts = s.districts := by
  unfold takeHourDue
  split <;> simp

theorem firstSetting_districts (day time : Nat) : (firstSetting day time s).districts = s.districts := by
  unfold firstSetting
  rw [flagClockSet_districts, foldl_districts addUnclocked_districts, openPresentHour_districts, openBook_districts]

theorem setForced_districts (day time : Nat) : (setForced day time s).districts = s.districts := by
  unfold setForced
  dsimp only
  rw [flagClockSet_districts, openPresentHour_districts]
  split
  · simp
  · split_ifs <;> simp

theorem setUnforced_districts (day time : Nat) : (setUnforced day time s).2.districts = s.districts := by
  unfold setUnforced
  extract_lets old new ahead behind
  rw [apply_ite Prod.snd, apply_ite Prod.snd, apply_ite Prod.snd]
  have hforward : ∀ n, (stepForward day time n s).districts = s.districts := fun _ => rfl
  have hbackward : ∀ n, (stepBackward day time n s).districts = s.districts := fun _ => rfl
  split_ifs
  · rfl
  · exact hforward ahead
  · exact hbackward behind
  · rfl

@[simp] theorem setClockNow_districts (day time : Nat) (force : Bool) :
    (setClockNow day time force s).2.districts = s.districts := by
  unfold setClockNow
  split_ifs
  · exact firstSetting_districts s day time
  · exact setForced_districts s day time
  · exact setUnforced_districts s day time

@[simp] theorem advanceClock_districts : (advanceClock s).districts = s.districts := by
  unfold advanceClock
  dsimp only
  split <;> rfl

/-! ### Holders and valves -/

@[simp] theorem formYardStock_districts : (formYardStock s).districts = s.districts := rfl

@[simp] theorem writeOutletSet_districts (h : Nat) (set : DistrictSet) :
    (writeOutletSet h set s).districts = s.districts := by
  cases h <;> rfl

@[simp] theorem clearCloseFailed_districts (h : Nat) (c : Vector ValveState 7) :
    (clearCloseFailed h c s).districts = s.districts := by
  refine foldl_districts (fun s v => ?_) _ s
  split <;> simp

@[simp] theorem clearCloseFailures_districts (h : Nat) : (clearCloseFailures h s).districts = s.districts :=
  foldl_districts (fun s _ => clearAlarm_districts s _) _ s

@[simp] theorem setSequence_districts (h : Nat) (l : List Closure) (n : Option Nat) :
    (setSequence h l n s).districts = s.districts := by
  unfold setSequence
  split <;> rfl

@[simp] theorem addClosures_districts (h : Nat) (cause : SupersessionCause) (v : Option Nat) :
    (addClosures h cause v s).districts = s.districts := by
  unfold addClosures
  split <;> rfl

@[simp] theorem raiseCondition_districts (h : Nat) (c : Condition) : (raiseCondition h c s).districts = s.districts := by
  unfold raiseCondition
  split <;> simp

@[simp] theorem clearCondition_districts (h : Nat) (c : Condition) : (clearCondition h c s).districts = s.districts := by
  unfold clearCondition
  split <;> simp

@[simp] theorem endBlindness_districts (h : Nat) : (endBlindness h s).districts = s.districts := by
  unfold endBlindness
  split <;> simp

@[simp] theorem overTopChange_districts (h : Nat) (b c : Bool) : (overTopChange h b c s).districts = s.districts := by
  unfold overTopChange
  split_ifs <;> simp

/-! ### Sends, reports and claims -/

theorem makeSend_districts (e : Station) (o : Order) (bs : List Buffer) :
    (makeSend e o bs s).2.districts = s.districts :=
  (LineOnly.queueCopies { o with sends := o.sends + 1 } s.serial ((copyPorts e.branch).zip bs)
    (.refl (nextSerial s))).districts

theorem retireHead_districts (e : Entry) (rest : List Entry) : (retireHead e rest s).districts = s.districts := by
  unfold retireHead
  dsimp only
  split <;> rfl

@[simp] theorem holdingTest_districts : (holdingTest s).districts = s.districts :=
  (LineOnly.holdingTest (.refl s)).districts

@[simp] theorem enqueue_districts (p : Port) (b : Bool) (x : Telegram) : (enqueue p b x s).districts = s.districts :=
  (LineOnly.enqueue p b x (.refl s)).districts

@[simp] theorem releaseBuffer_districts (b : Buffer) : (releaseBuffer b s).districts = s.districts :=
  (LineOnly.releaseBuffer b (.refl s)).districts

@[simp] theorem claimForBacklog_districts : (claimForBacklog s).districts = s.districts := by
  unfold claimForBacklog
  split <;> rfl

variable {s}
variable {t : State}

theorem sendPart_districts {test : Bool} (h : sendPart test s = some t) : t.districts = s.districts := by
  unfold sendPart at h
  split at h
  · cases h
  · dsimp only at h
    split at h
    · cases h
      exact retireHead_districts s _ _
    · split at h
      · cases h
      · rename_i v hv
        have hv := (Part.takeForReport hv).districts
        split at h
        · cases h
          rw [retireHead_districts, enqueue_districts]
          split_ifs <;> simp [hv]
        · cases h
          dsimp only
          rw [enqueue_districts]
          split_ifs <;> simp [hv]

@[simp] theorem sendReports_districts (test : Bool) (n : Nat) (s : State) :
    (sendReports test n s).districts = s.districts := by
  induction n generalizing s with
  | zero => rfl
  | succ n ih =>
    unfold sendReports
    split
    · rfl
    · split
      · rename_i hv
        rw [ih, sendPart_districts hv]
      · simp

theorem takeForSend_districts {a : Nat} {e : Station} {o : Order} {bs : List Buffer}
    (h : takeForSend a s = some (e, o, bs, t)) : t.districts = s.districts :=
  (takeForSend_some h).2.2.districts

theorem offerClaim_districts {c : Claim} {bs : List Buffer} (h : offerClaim c s = some (bs, t)) :
    t.districts = s.districts := by
  cases c with
  | send a =>
    simp only [offerClaim] at h
    split at h
    · cases h
    · rename_i hv
      rw [← show (makeSend _ _ _ (withdrawClaim (.send a) _)).2 = t from congrArg Prod.snd (Option.some.inj h),
        makeSend_districts, withdrawClaim_districts, takeForSend_districts hv]
  | backlog =>
    simp only [offerClaim] at h
    split at h
    · cases h
    · rename_i hv
      cases h
      rw [sendReports_districts, withdrawClaim_districts, sendPart_districts hv]

theorem offerPass_districts (l : List Claim) (s : State) : (offerPass l s).2.districts = s.districts := by
  induction l generalizing s with
  | nil => rfl
  | cons c l ih =>
    unfold offerPass
    split
    · split
      · exact ih s
      · rename_i hv
        rw [ih, offerClaim_districts hv]
      · rename_i hv
        exact offerClaim_districts hv
    · exact ih s

theorem freeing_districts (n : Nat) (b : Buffer) (s : State) : (freeing n b s).districts = s.districts := by
  induction n generalizing b s with
  | zero => simp [freeing]
  | succ n ih =>
    unfold freeing
    dsimp only
    rw [holdingTest_districts, foldl_districts (fun s b => ih b s), offerPass_districts, releaseBuffer_districts]

variable (s)

@[simp] theorem freeBuffer_districts (b : Buffer) : (freeBuffer b s).districts = s.districts := freeing_districts _ b s

@[simp] theorem freeBuffers_districts (bs : List Buffer) : (freeBuffers bs s).districts = s.districts :=
  foldl_districts (fun s b => freeBuffer_districts s b) bs s

@[simp] theorem attemptSend_districts (a : Nat) : (attemptSend a s).districts = s.districts := by
  unfold attemptSend
  dsimp only
  split
  · rfl
  · rename_i hv
    rw [freeBuffers_districts, makeSend_districts, holdingTest_districts, takeForSend_districts hv, serve_districts]

/-! ### The Relay Unit -/

@[simp] theorem hear_districts (a : Nat) (b : Branch) : (hear a b s).districts = s.districts := by
  unfold hear hearStation hearStranger
  split
  · dsimp only
    split_ifs <;> simp
  · split <;> rfl

@[simp] theorem forwardField_districts (r : Received) (b : Branch) (urgent : Bool) (x : Option (List Byte)) :
    (forwardField r b urgent x s).districts = s.districts := by
  unfold forwardField
  split
  · simp
  · split
    · split <;> simp
    · simp

theorem takeReceived_districts {p : Port} {r : Received} {s t : State} (h : takeReceived p s = some (r, t)) :
    t.districts = s.districts := (Part.takeReceived h).districts

theorem drainOne_districts {s t : State} (h : drainOne s = some t) : t.districts = s.districts := by
  unfold drainOne at h
  split at h
  · cases h
  · rename_i hr
    have hr := takeReceived_districts hr
    split at h
    · split at h
      · cases h
        simp [hr]
      · split at h
        · cases h
        · cases h
          simp [queueAnswer, hr]
    · cases h

@[simp] theorem drainOffice_districts (n : Nat) : (drainOffice n s).districts = s.districts := by
  induction n generalizing s with
  | zero => rfl
  | succ n ih =>
    unfold drainOffice
    split
    · rfl
    · rename_i hv
      rw [ih, drainOne_districts hv]

@[simp] theorem drain_districts : (drain s).districts = s.districts := drainOffice_districts s _

theorem furtherCopy_districts (r : Received) : (furtherCopy r s).districts = s.districts := by
  unfold furtherCopy
  split
  · rfl
  · rename_i hv
    simp [(LineOnly.takeGeneral hv (.refl s)).districts]

@[simp] theorem forwardBoth_districts (r : Received) : (forwardBoth r s).districts = s.districts := by
  unfold forwardBoth ownCopy
  split <;> simp [furtherCopy_districts]

@[simp] theorem forwardOne_districts (r : Received) (p : Port) : (forwardOne r p s).districts = s.districts := by
  unfold forwardOne ownCopy
  split <;> simp

@[simp] theorem refuseCommand_districts (r : Received) (a : Nat) (x : RefusalReason) :
    (refuseCommand r a x s).districts = s.districts := by
  simp [refuseCommand]

@[simp] theorem dispatchCommand_districts (r : Received) (a : Nat) : (dispatchCommand r a s).districts = s.districts := by
  unfold dispatchCommand
  split
  · split <;> simp
  · split <;> simp

@[simp] theorem passCommand_districts (r : Received) : (passCommand r s).districts = s.districts := by
  unfold passCommand
  dsimp only
  split_ifs
  · simp
  · simp
  · split <;> simp

@[simp] theorem passOffice_districts : (passOffice s).districts = s.districts := by
  unfold passOffice
  split
  · rfl
  · rename_i hr
    rw [drain_districts, passCommand_districts, takeReceived_districts hr]

/-! ### The ports -/

theorem startReception_districts (p : Port) (o : Byte) (faulty : Bool) :
    (startReception p o faulty s).districts = s.districts := by
  unfold startReception
  split
  · rename_i hv
    simp [setReceiver, (LineOnly.takeGeneral hv (.refl s)).districts]
  · rfl

theorem takeOctet_districts (p : Port) (o : Byte) (faulty : Bool) : (takeOctet p o faulty s).districts = s.districts := by
  unfold takeOctet
  split <;> rfl

theorem endFrame_districts (p : Port) : (endFrame p s).districts = s.districts := by
  unfold endFrame
  split
  · rfl
  · dsimp only
    split
    · unfold goodTelegram
      split <;> simp [idleReceiver]
    · simp [badTelegram, idleReceiver]
  · rfl

end Frames

end Sys2Proof.Laws
end

section
/-! SUPPORT. The statement about what every step keeps of the active setpoint: every operation keeps it, by itself or, in
the operations that form a limit or enter AUTO, together with the clamp or the step computation that follows. -/

namespace Sys2Proof.Setpoints

open Sys2Proof Sys2Proof.Machine Sys2Proof.Laws

/-! ### One record, and the others -/

/-- R92: an active setpoint of AUTO is within its record's maximum and supply limit. -/
def RecordWithin (r : District) : Prop := ∀ v, r.mode = .auto → r.active = some v → v ≤ r.maximum ∧ v ≤ r.supplyLimit

/-- Every record but one district's is within its limits. -/
def WithinElsewhere (d : Nat) (s : State) : Prop := ∀ k r, k ≠ d → s.district k = some r → RecordWithin r

section Within

variable {d : Nat} {s t : State}

theorem recordWithin_of_mode {r : District} (h : r.mode ≠ .auto) : RecordWithin r := fun _ hauto => absurd hauto h

theorem recordWithin_of_loaded {r : District} (hr : s.district d = some r) (h : ActiveWithinLimits s) : RecordWithin r :=
  fun v => h d r v hr

theorem elsewhere_of_within (d : Nat) (h : ActiveWithinLimits s) : WithinElsewhere d s :=
  fun _ _ _ hr => recordWithin_of_loaded hr h

theorem within_of_elsewhere (h : WithinElsewhere d s) (hd : ∀ r, s.district d = some r → RecordWithin r) :
    ActiveWithinLimits s := by
  intro k r v hr
  by_cases hk : k = d
  · exact hd r (hk ▸ hr) v
  · exact h k r hk hr v

theorem within_of_unloaded (h : WithinElsewhere d s) (hn : s.district d = none) : ActiveWithinLimits s :=
  within_of_elsewhere h (fun r hr => by simp [hn] at hr)

theorem within_of_record {r : District} (h : WithinElsewhere d s) (hr : s.district d = some r) (hx : RecordWithin r) :
    ActiveWithinLimits s :=
  within_of_elsewhere h (fun _ hq => Option.some.inj (hr.symm.trans hq) ▸ hx)

theorem within_of_districts (e : t.districts = s.districts) (h : ActiveWithinLimits s) : ActiveWithinLimits t := by
  intro k r v hr
  exact h k r v (district_of_districts e k ▸ hr)

theorem elsewhere_of_districts (e : t.districts = s.districts) (h : WithinElsewhere d s) : WithinElsewhere d t := by
  intro k r hk hr
  exact h k r hk (district_of_districts e k ▸ hr)

theorem putDistrict_district_ne {k : Nat} (hk : k ≠ d) (s : State) (x : District) :
    (s.putDistrict d x).district k = s.district k := by
  rw [putDistrict_district, if_neg (fun h => hk h.1.symm)]

theorem eq_of_putDistrict_district {x r : District} (h : (s.putDistrict d x).district d = some r) : r = x := by
  have hrange := Points.recordGet_some_le h
  rw [putDistrict_district, if_pos ⟨rfl, hrange⟩] at h
  exact (Option.some.inj h).symm

theorem elsewhere_putDistrict (x : District) (h : WithinElsewhere d s) : WithinElsewhere d (s.putDistrict d x) := by
  intro k r hk hr
  exact h k r hk (by rwa [putDistrict_district_ne hk] at hr)

theorem within_putDistrict {x : District} (hx : RecordWithin x) (h : WithinElsewhere d s) :
    ActiveWithinLimits (s.putDistrict d x) :=
  within_of_elsewhere (elsewhere_putDistrict x h) (fun _ hr => eq_of_putDistrict_district hr ▸ hx)

/-- A record may change in any fields but its mode, active setpoint, maximum and supply limit. -/
theorem within_putDistrict_same {r x : District} (hr : s.district d = some r)
    (hsame : x.mode = r.mode ∧ x.active = r.active ∧ x.maximum = r.maximum ∧ x.supplyLimit = r.supplyLimit)
    (h : ActiveWithinLimits s) : ActiveWithinLimits (s.putDistrict d x) := by
  obtain ⟨hmode, hactive, hmaximum, hlimit⟩ := hsame
  refine within_putDistrict (fun v => ?_) (elsewhere_of_within d h)
  rw [hmode, hactive, hmaximum, hlimit]
  exact h d r v hr

theorem within_foldl {α : Type} {f : State → α → State} (hf : ∀ s x, ActiveWithinLimits s → ActiveWithinLimits (f s x))
    (l : List α) (h : ActiveWithinLimits s) : ActiveWithinLimits (l.foldl f s) := by
  induction l generalizing s with
  | nil => exact h
  | cons x l ih => exact ih (hf s x h)

/-! ### The Pressure Scheduler (R83, R85 to R97) -/

/-- R92: a setpoint written within the limits of its district, if that is in AUTO. -/
theorem within_writeActive {v : Nat} (h : WithinElsewhere d s)
    (hv : ∀ r, s.district d = some r → r.mode = .auto → v ≤ r.maximum ∧ v ≤ r.supplyLimit) :
    ActiveWithinLimits (writeActive d v s) := by
  unfold writeActive
  split
  · rename_i hn
    exact within_of_unloaded h hn
  · rename_i r hr
    have written : RecordWithin { r with active := some v } := by
      intro w hauto hw
      cases hw
      exact hv r hr hauto
    split
    · rename_i hsame
      exact within_of_record h hr (fun w hauto hw => written w hauto (hsame ▸ hw))
    · exact within_of_districts (handActive_districts _ d v) (within_putDistrict written h)

theorem within_setFailed (raise : Bool) (d a : Nat) (h : ActiveWithinLimits s) :
    ActiveWithinLimits (setFailed raise d a s) := by
  have hraised : ActiveWithinLimits (if raise then raiseAlarm (alarmKey .orderFailed d) s else s) := by
    split
    · exact within_of_districts (raiseAlarm_districts s _) h
    · exact h
  unfold setFailed
  dsimp only
  split
  · exact hraised
  · rename_i r hr
    split
    · exact within_putDistrict_same hr ⟨rfl, rfl, rfl, rfl⟩ hraised
    · exact hraised

theorem within_sendDecision (d : Nat) (h : ActiveWithinLimits s) : ActiveWithinLimits (sendDecision d s) := by
  unfold sendDecision
  split
  · exact h
  · split
    · exact h
    · split
      · unfold issueSet
        split
        · exact h
        · split
          · exact within_setFailed true d _ h
          · exact within_of_districts (placeSet_districts s _ _ _) h
      · exact h

/-- R96: the clamp brings a setpoint that is within its maximum within its limit. -/
theorem within_clampActive (h : WithinElsewhere d s)
    (hmax : ∀ r v, s.district d = some r → r.mode = .auto → r.active = some v → v ≤ r.maximum) :
    ActiveWithinLimits (clampActive d s) := by
  unfold clampActive
  split
  · rename_i hn
    exact within_of_unloaded h hn
  · rename_i r hr
    split
    · rename_i hn
      exact within_of_record h hr (fun v _ hv => by simp [hn] at hv)
    · rename_i v hv
      split
      · rename_i hc
        obtain ⟨hauto, hlow⟩ := hc
        have hclamped : ActiveWithinLimits (writeActive d r.supplyLimit s) := by
          refine within_writeActive h (fun q hq _ => ?_)
          obtain rfl : r = q := Option.some.inj (hr.symm.trans hq)
          exact ⟨hlow.le.trans (hmax r v hr hauto hv), le_rfl⟩
        refine within_sendDecision d ?_
        split
        · exact within_of_districts (raiseAlarm_districts _ _) hclamped
        · exact hclamped
      · rename_i hc
        refine within_of_record h hr (fun w hauto hw => ?_)
        obtain rfl : v = w := Option.some.inj (hv.symm.trans hw)
        exact ⟨hmax r v hr hauto hv, not_lt.mp (fun hlow => hc ⟨hauto, hlow⟩)⟩

/-- R95, R96: a limit formed afresh is followed by the clamp. -/
theorem within_recomputeDistrict (d : Nat) (h : ActiveWithinLimits s) : ActiveWithinLimits (recomputeDistrict s d) := by
  unfold recomputeDistrict
  split
  · exact h
  · rename_i r hr
    dsimp only
    split
    · exact h
    · generalize hq : ({ r with
        supplyLimit := (supplyOf d r.drop s).1, supplied := (supplyOf d r.drop s).2 } : District) = q
      have hfields : q.mode = r.mode ∧ q.active = r.active ∧ q.maximum = r.maximum := by
        subst hq
        exact ⟨rfl, rfl, rfl⟩
      obtain ⟨hmode, hactive, hmaximum⟩ := hfields
      have hdistricts : (if (supplyOf d r.drop s).2 = r.supplied then s.putDistrict d q
          else supplyStateChanged d (supplyOf d r.drop s).2 (s.putDistrict d q)).districts
            = (s.putDistrict d q).districts := by
        split
        · rfl
        · exact supplyStateChanged_districts _ _ _
      refine within_clampActive (elsewhere_of_districts hdistricts
        (elsewhere_putDistrict q (elsewhere_of_within d h))) (fun x v hx hauto hv => ?_)
      rw [district_of_districts hdistricts] at hx
      obtain rfl := eq_of_putDistrict_district hx
      rw [hmaximum]
      exact (h d r v hr (hmode ▸ hauto) (hactive ▸ hv)).1

theorem within_recomputeSupply (h : ActiveWithinLimits s) : ActiveWithinLimits (recomputeSupply s) :=
  within_foldl (fun _ d h => within_recomputeDistrict d h) _ h

theorem within_handOutletSet (k : Nat) (set : DistrictSet) (h : ActiveWithinLimits s) :
    ActiveWithinLimits (handOutletSet k set s) :=
  within_recomputeSupply (within_of_districts (writeOutletSet_districts s k set) h)

/-- R92: a step computation leaves its district within its limits, whatever it was before. -/
theorem within_stepComputation (h : WithinElsewhere d s) : ActiveWithinLimits (stepComputation d s) := by
  unfold stepComputation
  split
  · rename_i hn
    exact within_of_unloaded h hn
  · rename_i r hr
    dsimp only
    refine within_sendDecision d (within_writeActive (elsewhere_of_districts (judgeShort_districts _ d _ _)
      (elsewhere_putDistrict _ h)) (fun q hq _ => ?_))
    rw [district_of_districts (judgeShort_districts _ d _ _)] at hq
    obtain rfl := eq_of_putDistrict_district hq
    exact ⟨min_le_left _ _, (min_le_right _ _).trans (min_le_left _ _)⟩

/-- R85: a step boundary leaves its district within its limits, whatever it was before. -/
theorem within_stepBoundary (h : WithinElsewhere d s) : ActiveWithinLimits (stepBoundary d s) := by
  unfold stepBoundary
  split
  · rename_i hn
    exact within_of_unloaded h hn
  · dsimp only
    split
    · exact within_stepComputation (elsewhere_putDistrict _ h)
    · rename_i hmode
      exact within_putDistrict (recordWithin_of_mode hmode) h

/-- R83: only a district outside AUTO takes the setpoint that its governor has taken as its active one. -/
theorem within_governorCompletion (d a : Nat) (o : Order) (reply : List Byte) (h : ActiveWithinLimits s) :
    ActiveWithinLimits (governorCompletion d a o reply s) := by
  unfold governorCompletion
  split
  · exact h
  · rename_i r hr
    split
    · exact h
    · generalize hv : governorView reply r = x
      have hview : x.mode = r.mode ∧ x.active = r.active ∧ x.maximum = r.maximum ∧ x.supplyLimit = r.supplyLimit := by
        subst hv
        unfold governorView
        split <;> exact ⟨rfl, rfl, rfl, rfl⟩
      dsimp only
      split
      · split
        · rename_i v _ _
          have hput := within_putDistrict_same (x := { x with lastSent := some v, setFailed := false }) hr hview h
          have hwritten : ActiveWithinLimits (if x.mode = .auto then
                s.putDistrict d { x with lastSent := some v, setFailed := false }
              else writeActive d v (s.putDistrict d { x with lastSent := some v, setFailed := false })) := by
            split
            · exact hput
            · rename_i hmode
              refine within_writeActive (elsewhere_of_within d hput) (fun q hq hauto => ?_)
              rw [eq_of_putDistrict_district hq] at hauto
              exact absurd hauto hmode
          split
          · exact within_of_districts (oweSetpoint_districts _ d) hwritten
          · exact hwritten
        · exact within_putDistrict_same hr hview h
      · exact within_putDistrict_same hr hview h

theorem within_judgeOrderFailed (d : Nat) (reply : List Byte) (h : ActiveWithinLimits s) :
    ActiveWithinLimits (judgeOrderFailed d reply s) := by
  unfold judgeOrderFailed
  split
  · exact within_of_districts (clearAlarm_districts s _) h
  · exact within_of_districts (raiseAlarm_districts s _) h

/-! ### The Valve Interlock Unit: what changes an outlet set (R45, R46, R56 to R59) -/

theorem within_formOutletSet (k : Nat) (h : ActiveWithinLimits s) : ActiveWithinLimits (formOutletSet k s) := by
  unfold formOutletSet
  split
  · exact h
  · dsimp only
    split
    · exact h
    · exact within_handOutletSet k _ (within_of_districts (by rfl) h)

theorem within_takeValveStates (k : Nat) (body : List Byte) (h : ActiveWithinLimits s) :
    ActiveWithinLimits (takeValveStates k body s) := by
  unfold takeValveStates
  split
  · split
    · exact h
    · exact within_of_districts (clearCloseFailed_districts _ _ _)
        (within_formOutletSet k (within_of_districts (by rfl) h))
  · exact h

theorem within_closeOutcome (k v : Nat) (success : Bool) (h : ActiveWithinLimits s) :
    ActiveWithinLimits (closeOutcome k v success s) := by
  unfold closeOutcome
  split
  · exact h
  · split
    · exact h
    · exact within_of_districts (raiseAlarm_districts _ _) (within_formOutletSet k (within_of_districts (by rfl) h))

theorem within_setSequence (k : Nat) (l : List Closure) (n : Option Nat) (h : ActiveWithinLimits s) :
    ActiveWithinLimits (setSequence k l n s) := within_of_districts (setSequence_districts s k l n) h

theorem within_handFront (k a : Nat) (l : List Closure) (h : ActiveWithinLimits s) :
    ActiveWithinLimits (handFront k a l s) := by
  induction l generalizing s with
  | nil => exact within_setSequence k _ _ h
  | cons c l ih =>
    unfold handFront
    split
    · exact h
    · split
      · exact ih h
      · split
        · exact ih (within_closeOutcome k _ _ (within_setSequence k _ _ h))
        · exact within_of_districts (placeClose_districts _ _ _ _) (within_setSequence k _ _ h)

theorem within_handOver (k : Nat) (h : ActiveWithinLimits s) : ActiveWithinLimits (handOver k s) := by
  unfold handOver
  split
  · split
    · exact h
    · exact within_handFront k _ _ h
  · exact h

theorem within_closeEnded (k : Nat) (o : Order) (done resume : Bool) (h : ActiveWithinLimits s) :
    ActiveWithinLimits (closeEnded k o done resume s) := by
  unfold closeEnded
  split
  · exact h
  · rename_i q _
    split
    · split
      · exact h
      · rename_i c rest _
        have hended := within_closeOutcome k c.valve (done || valveReadsClosed q c.valve)
          (within_setSequence k rest none h)
        dsimp only
        split
        · exact within_handOver k hended
        · exact hended
    · exact h

theorem within_dropSequence (k : Nat) (l : List Closure) (h : ActiveWithinLimits s) :
    ActiveWithinLimits (dropSequence k l s) := by
  induction l generalizing s with
  | nil => exact within_setSequence k _ _ h
  | cons c l ih =>
    unfold dropSequence
    split
    · exact h
    · exact ih (within_closeOutcome k _ _ (within_setSequence k _ _ h))

theorem within_interlockCause (k : Nat) (cause : SupersessionCause) (h : ActiveWithinLimits s) :
    ActiveWithinLimits (interlockCause k cause s) := by
  unfold interlockCause
  split
  · exact h
  · dsimp only
    refine within_of_districts (serve_districts _ _) ?_
    have hadded := fun a v =>
      within_of_districts ((addClosures_districts _ k cause v).trans (withdrawOpens_districts s a cause)) h
    split
    · exact hadded _ _
    · exact within_handOver k (hadded _ _)

/-! ### The Order Unit: how orders end (R69 to R76) -/

theorem within_handCloseEnding (o : Order) (done resume : Bool) (h : ActiveWithinLimits s) :
    ActiveWithinLimits (handCloseEnding o done resume s) := by
  unfold handCloseEnding
  split
  · exact h
  · exact within_closeEnded _ o done resume h

theorem within_orderFailed (o : Order) (h : ActiveWithinLimits s) : ActiveWithinLimits (orderFailed o s) := by
  unfold orderFailed
  split
  · exact within_of_districts (oweRefusal_districts s _ _ _) h
  · exact within_handCloseEnding o false true h
  · split
    · exact within_setFailed true _ _ h
    · exact within_of_districts (raiseAlarm_districts s _) h

theorem within_replyTimerExpired (a : Nat) (h : ActiveWithinLimits s) : ActiveWithinLimits (replyTimerExpired a s) := by
  unfold replyTimerExpired
  split
  · exact h
  · split
    · split
      · exact within_of_districts (by rfl) h
      · exact within_of_districts (serve_districts _ a)
          (within_orderFailed _ (within_of_districts (emptySlot_districts s a) h))
    · exact h

theorem within_completeOrder (a : Nat) (o : Order) (body : List Byte) (h : ActiveWithinLimits s) :
    ActiveWithinLimits (completeOrder a o body s) := by
  have hempty := within_of_districts (emptySlot_districts s a) h
  refine within_of_districts (serve_districts _ a) ?_
  split
  · unfold officeCompletion
    split
    · split
      · exact hempty
      · exact within_governorCompletion _ _ o body hempty
    · exact hempty
  · unfold automaticCompletion
    split
    · exact hempty
    · exact within_handCloseEnding o _ _ hempty
    · exact within_judgeOrderFailed _ body (within_governorCompletion _ _ o body hempty)

theorem within_clearOrder (o : Order) (h : ActiveWithinLimits s) : ActiveWithinLimits (clearOrder s o) := by
  unfold clearOrder
  split
  · exact within_of_districts (oweSuperseded_districts s o _) h
  · exact h
  · split
    · exact within_setFailed false _ _ h
    · exact h

theorem within_clearOrders (a : Nat) (h : ActiveWithinLimits s) : ActiveWithinLimits (clearOrders a s) := by
  unfold clearOrders
  split
  · exact h
  · exact within_foldl (fun _ o h => within_clearOrder o h) _ (within_of_districts (by rfl) h)

theorem within_endSequence (a : Nat) (h : ActiveWithinLimits s) : ActiveWithinLimits (endSequence a s) := by
  unfold endSequence
  split
  · exact h
  · split
    · exact h
    · exact within_dropSequence _ _ h

/-! ### The Stock Reckoning Unit: what changes a supply (R23 to R40) -/

theorem within_conditionChange (k : Nat) (after : Condition) (h : ActiveWithinLimits s) :
    ActiveWithinLimits (conditionChange k after s) := by
  unfold conditionChange
  split
  · exact h
  · rename_i r _
    dsimp only
    have howed : ActiveWithinLimits (oweHolderState k
        ((raiseCondition k after (clearCondition k r.condition s)).putHolder k { r with condition := after })) :=
      within_of_districts (by simp) h
    generalize oweHolderState k _ = w at howed ⊢
    have hcause : ActiveWithinLimits (match conditionCause after with
        | none => w
        | some cause => interlockCause k cause w) := by
      split
      · exact howed
      · exact within_interlockCause k _ howed
    split
    · exact within_recomputeSupply hcause
    · exact hcause

theorem within_becomeBlind (k : Nat) (h : ActiveWithinLimits s) : ActiveWithinLimits (becomeBlind k s) := by
  unfold becomeBlind
  split
  · exact h
  · split
    · exact h
    · exact within_of_districts (handStockPartial_districts _)
        (within_interlockCause k .blind (within_of_districts (by simp) h))

theorem within_reckon (k : Nat) (g : Int) (h : ActiveWithinLimits s) : ActiveWithinLimits (reckon k g s) := by
  unfold reckon
  split
  · exact h
  · rename_i r _
    dsimp only
    generalize hw : (if r.blind = true then endBlindness k _ else _ : State) = w
    have hwritten : ActiveWithinLimits w := by
      subst hw
      refine within_of_districts ?_ h
      split <;> simp
    have hchanged : ActiveWithinLimits (if conditionAfter r (clampRise g r.topRise) = r.condition then w
        else conditionChange k (conditionAfter r (clampRise g r.topRise)) w) := by
      split
      · exact hwritten
      · exact within_conditionChange k _ hwritten
    split
    · exact hchanged
    · exact within_recomputeSupply hchanged

theorem within_gaugeUpdate (u : PointUpdate) (k : Nat) (h : ActiveWithinLimits s) :
    ActiveWithinLimits (gaugeUpdate u k s) := by
  unfold gaugeUpdate
  split
  · exact within_reckon k _ h
  · exact within_becomeBlind k h
  · exact within_becomeBlind k h
  · exact within_becomeBlind k h
  · exact h

theorem within_pressureUpdate (k : Nat) (h : ActiveWithinLimits s) : ActiveWithinLimits (pressureUpdate k s) := by
  unfold pressureUpdate
  split
  · exact h
  · dsimp only
    split
    · exact h
    · exact within_recomputeSupply (within_of_districts (by rfl) h)

theorem within_holderUpdate (u : PointUpdate) (k : Nat) (h : ActiveWithinLimits s) :
    ActiveWithinLimits (holderUpdate u s k) := by
  unfold holderUpdate
  split
  · exact h
  · rename_i r _
    have hgauge : ActiveWithinLimits (if r.gaugePoint = u.number then gaugeUpdate u k s else s) := by
      split
      · exact within_gaugeUpdate u k h
      · exact h
    split
    · dsimp only
      split
      · exact within_pressureUpdate k hgauge
      · exact hgauge
    · exact h

/-- R7: a hand-over of a point. -/
theorem within_handUpdate (u : PointUpdate) (h : ActiveWithinLimits s) : ActiveWithinLimits (handUpdate u s) :=
  within_of_districts ((schedulerUpdate_districts _ u).trans (accountUpdate_districts _ u))
    (within_foldl (fun _ k h => within_holderUpdate u k h) _ h)

theorem within_bringIn (k : Nat) (h : ActiveWithinLimits s) : ActiveWithinLimits (bringIn k s) := by
  unfold bringIn
  split
  · exact h
  · rename_i r _
    have hin := within_of_districts (handStockPartial_districts _)
      (within_recomputeSupply (within_of_districts (t := oweHolderState k (formYardStock (s.putHolder k { r with
        inReckoning := true, condition := .normal, blind := true, quality := .stale, overTop := false }))) (by simp) h))
    dsimp only
    split
    · exact hin
    · exact within_reckon k _ hin

theorem within_takeOut (k : Nat) (h : ActiveWithinLimits s) : ActiveWithinLimits (takeOut k s) := by
  unfold takeOut
  split
  · exact h
  · exact within_of_districts (handStockPartial_districts _)
      (within_recomputeSupply (within_interlockCause k .out (within_of_districts (by simp) h)))

/-! ### The Point Converter and the Relay Unit (R4 to R8, R125, R133) -/

theorem within_convertSample (source : Nat) (body : List Byte) (h : ActiveWithinLimits s) :
    ActiveWithinLimits (convertSample source body s) := by
  unfold convertSample
  split
  · refine within_foldl (fun s e h => ?_) _ h
    unfold takeEntry
    split
    · exact h
    · split
      · exact h
      · exact within_handUpdate _ (within_of_districts (by rfl) h)
  · exact h

theorem within_stalePoints (a : Nat) (h : ActiveWithinLimits s) : ActiveWithinLimits (stalePoints a s) := by
  refine within_foldl (fun s n h => ?_) _ h
  unfold stalePoint
  split
  · exact h
  · split
    · exact within_handUpdate _ (within_of_districts (by rfl) h)
    · exact h

theorem within_goSilent (a : Nat) (h : ActiveWithinLimits s) : ActiveWithinLimits (goSilent a s) :=
  within_stalePoints a (within_of_districts (by simp) h)

theorem within_passSample (r : Received) (b : Branch) (h : ActiveWithinLimits s) :
    ActiveWithinLimits (passSample r b s) :=
  within_of_districts (forwardField_districts _ r b _ _)
    (within_convertSample _ _ (within_of_districts (hear_districts s _ b) h))

theorem within_interlockReply (a : Nat) (body : List Byte) (h : ActiveWithinLimits s) :
    ActiveWithinLimits (interlockReply a body s) := by
  unfold interlockReply
  split
  · exact h
  · exact within_takeValveStates _ body h

theorem within_passReply (r : Received) (b : Branch) (h : ActiveWithinLimits s) :
    ActiveWithinLimits (passReply r b s) := by
  have hheard := within_interlockReply (sourceOf r.octets) (bodyOf r.octets)
    (within_of_districts (hear_districts s (sourceOf r.octets) b) h)
  unfold passReply
  dsimp only
  split
  · exact within_of_districts (forwardField_districts _ r b _ _) hheard
  · rename_i o _
    have hcompleted := within_completeOrder (sourceOf r.octets) o (bodyOf r.octets) hheard
    split
    · unfold forwardCompletion
      split
      · exact within_of_districts (enqueue_districts _ _ _ _) hcompleted
      · exact within_of_districts (freeBuffer_districts _ _) hcompleted
    · exact within_of_districts (freeBuffer_districts _ _) hcompleted

theorem within_passField {pass : Received → Branch → State → State} (p : Port)
    (hpass : ∀ r b s, ActiveWithinLimits s → ActiveWithinLimits (pass r b s)) (h : ActiveWithinLimits s) :
    ActiveWithinLimits (passField p pass s) := by
  unfold passField
  split
  · rename_i hr
    exact hpass _ _ _ (within_of_districts (takeReceived_districts hr) h)
  · exact h

theorem within_finishScan (codes : List Nat) (h : ActiveWithinLimits s) : ActiveWithinLimits (finishScan codes s) := by
  have hconverted := within_convertSample ownAddress (bodyOf (localSample s.localConverter codes))
    (within_of_districts (t := { s with localConverter := { s.localConverter with scanning := false } }) (by rfl) h)
  unfold finishScan
  dsimp only
  split
  · exact hconverted
  · unfold queueLocal
    split
    · exact hconverted
    · rename_i hv
      exact within_of_districts (by simp [(LineOnly.takeGeneral hv (.refl _)).districts]) hconverted

/-! ### Requests (R169) -/

/-- R169: a request keeps the limits if what it performs does, its checks passed. -/
theorem within_judge {checks : List (Bool × ResultCode)} {act : State → State}
    (hact : firstFailure checks = none → ActiveWithinLimits (act s)) (h : ActiveWithinLimits s) :
    ActiveWithinLimits (judge checks act s).state := by
  unfold judge
  split
  · exact h
  · rename_i hn
    exact hact hn

theorem within_removeStation (a : Nat) (h : ActiveWithinLimits s) : ActiveWithinLimits (removeStation a s) :=
  within_of_districts (clearAlarm_districts _ (alarmKey .stationSilent a))
    (within_of_districts (by rfl) (within_endSequence a (within_clearOrders a h)))

theorem storeStation_districts (x : StationFields) (s : State) : (storeStation x s).districts = s.districts := by
  unfold storeStation
  split <;> rfl

theorem within_handNone (n : Nat) (former : Option Point) (h : ActiveWithinLimits s) :
    ActiveWithinLimits (handNone n former s) := by
  cases former with
  | none => exact h
  | some p => exact within_handUpdate _ h

theorem within_storePoint (f : List Byte) (h : ActiveWithinLimits s) : ActiveWithinLimits (storePoint f s) := by
  unfold storePoint
  split
  · exact within_handNone _ _ (within_of_districts (by rfl) h)
  · exact h

theorem within_setLocal (enable : Bool) (resolution period : Nat) (h : ActiveWithinLimits s) :
    ActiveWithinLimits (setLocal enable resolution period s) := by
  unfold setLocal
  dsimp only
  split
  · exact within_of_districts (by rfl) h
  · split
    · exact within_of_districts (by rfl) h
    · exact within_stalePoints ownAddress (within_of_districts (by rfl) h)

theorem within_storeHolder (f : List Byte) (h : ActiveWithinLimits s) : ActiveWithinLimits (storeHolder f s) := by
  unfold storeHolder
  dsimp only
  split
  · split
    · exact within_of_districts (by rfl) h
    · unfold moveRouting
      refine within_of_districts (withdrawFromNewStation_districts _ _) ?_
      have hcleared := fun r : Vector (Option Lift) 4 => within_of_districts (clearCloseFailures_districts
        ((formYardStock (s.putHolder (octetAt f 0) (loadedHolder f r))).putRouting (octetAt f 0) Routing.fresh)
        (octetAt f 0)) (within_of_districts (by rfl) h)
      split
      · exact hcleared _
      · exact within_handOutletSet _ _ (hcleared _)
  · exact within_of_districts ((withdrawFromNewStation_districts _ _).trans (writeOutletSet_districts _ _ _)) h

theorem storeLift_districts (k n : Nat) (l : Lift) (s : State) : (storeLift k n l s).districts = s.districts := by
  unfold storeLift
  split <;> rfl

theorem within_setService (k : Nat) (enter : Bool) (h : ActiveWithinLimits s) :
    ActiveWithinLimits (setService k enter s) := by
  unfold setService
  split
  · exact h
  · split_ifs
    · exact h
    · exact within_bringIn k h
    · exact within_takeOut k h

/-- R98: a district that is not in AUTO may be configured. -/
theorem within_storeDistrict (f : List Byte) (hmode : ∀ r, s.district (octetAt f 0) = some r → r.mode ≠ .auto)
    (h : ActiveWithinLimits s) : ActiveWithinLimits (storeDistrict f s) := by
  unfold storeDistrict
  dsimp only
  split
  · have hloaded : ActiveWithinLimits (s.putDistrict (octetAt f 0) { configured f District.fresh with
        stepTimer := .running (configured f District.fresh).stepPeriod
        supplyLimit := (supplyOf (octetAt f 0) (configured f District.fresh).drop s).1
        supplied := (supplyOf (octetAt f 0) (configured f District.fresh).drop s).2 }) :=
      within_putDistrict (recordWithin_of_mode nofun) (elsewhere_of_within _ h)
    unfold firstLoad
    dsimp only
    split
    · exact hloaded
    · exact within_of_districts (raiseAlarm_districts _ _) hloaded
  · rename_i r hr
    have hreconfigured : (reconfigure f r).mode = r.mode := by
      unfold reconfigure
      dsimp only
      split <;> rfl
    exact within_recomputeDistrict _ (within_putDistrict
      (recordWithin_of_mode (hreconfigured ▸ hmode r hr)) (elsewhere_of_within _ h))

theorem within_loadDistrict (f : List Byte) (h : ActiveWithinLimits s) : ActiveWithinLimits (loadDistrict f s).state := by
  refine within_judge (fun hn => within_storeDistrict f (fun r hr hauto => ?_) h) h
  have hservice : ((s.district (octetAt f 0)).any (fun r => r.mode == .auto)) = true := by simp [hr, hauto]
  simp only [firstFailure_cons, firstFailure_nil, hservice, if_true] at hn
  split_ifs at hn

theorem within_storeProfile (d : Nat) (l : List Breakpoint) (h : ActiveWithinLimits s) :
    ActiveWithinLimits (storeProfile d l s) := by
  unfold storeProfile
  split
  · exact h
  · rename_i hr
    exact within_putDistrict_same hr ⟨rfl, rfl, rfl, rfl⟩ h

theorem within_setMode {d : Nat} {m : Mode} (hm : m ≠ .auto) (h : ActiveWithinLimits s) :
    ActiveWithinLimits (setMode d m s) := by
  unfold setMode
  split
  · exact h
  · exact within_putDistrict (recordWithin_of_mode hm) (elsewhere_of_within d h)

theorem elsewhere_setMode (m : Mode) (h : WithinElsewhere d s) : WithinElsewhere d (setMode d m s) := by
  unfold setMode
  split
  · exact h
  · exact elsewhere_putDistrict _ h

/-- R81: AUTO is entered with a step boundary, which brings the setpoint within its limits. -/
theorem within_changeMode (d : Nat) (m : Mode) (h : ActiveWithinLimits s) : ActiveWithinLimits (changeMode d m s) := by
  have hclear := within_of_districts (clearAlarm_districts s (alarmKey .districtShort d)) h
  unfold changeMode
  split
  · exact h
  · split
    · exact h
    · refine within_of_districts (oweSetpoint_districts _ d) ?_
      split
      · exact within_of_districts (issueRelease_districts _ d) (within_setMode nofun hclear)
      · unfold enterManual
        split
        · exact within_setMode nofun (within_of_districts (dropAutomaticSets_districts _ _) hclear)
        · exact within_setMode nofun h
      · exact within_stepBoundary (elsewhere_setMode .auto (elsewhere_putDistrict _
          (elsewhere_of_within d (within_of_districts (supersedeOfficeOrders_districts s _) h))))

theorem within_setFog (raise duration d : Nat) (h : ActiveWithinLimits s) :
    ActiveWithinLimits (setFog raise duration s d) := by
  unfold setFog
  split
  · exact h
  · rename_i hr
    exact within_putDistrict_same hr ⟨rfl, rfl, rfl, rfl⟩ h

theorem storeMeter_districts (f : List Byte) (s : State) : (storeMeter f s).districts = s.districts := by
  unfold storeMeter
  split
  · rfl
  · dsimp only
    split <;> rfl

theorem setClock_districts (f : List Byte) (s : State) : (setClock f s).state.districts = s.districts := by
  unfold setClock
  dsimp only
  split <;> simp

theorem readRequest_districts (f : List Byte) (s : State) : (readRequest f s).state.districts = s.districts := by
  unfold readRequest
  dsimp only
  split
  · rfl
  · split
    · rfl
    · split <;> rfl

theorem acknowledge_districts (key : AlarmKey) (s : State) : (acknowledge key s).districts = s.districts := by
  unfold acknowledge
  split
  · rfl
  · split <;> simp

/-! ### Restarts (R174) -/

theorem recordGet_mapRecords {α : Type} {n : Nat} (f : α → α) (v : Vector (Option α) n) (k : Nat) :
    recordGet (mapRecords f v) k = (recordGet v k).map f := by
  cases k with
  | zero => rfl
  | succ i =>
    simp only [recordGet, tableGet, mapRecords, Vector.getElem?_map]
    cases v[i]? <;> rfl

/-- Records changed alike in their timers alone. -/
theorem within_mapRecords {f : District → District} (e : t.districts = mapRecords f s.districts)
    (hf : ∀ r, (f r).mode = r.mode ∧ (f r).active = r.active ∧ (f r).maximum = r.maximum
      ∧ (f r).supplyLimit = r.supplyLimit) (h : ActiveWithinLimits s) : ActiveWithinLimits t := by
  intro d q v hq
  rw [State.district, e, recordGet_mapRecords] at hq
  obtain ⟨r, hr, rfl⟩ := Option.map_eq_some_iff.mp hq
  obtain ⟨hmode, hactive, hmaximum, hlimit⟩ := hf r
  rw [hmode, hactive, hmaximum, hlimit]
  exact h d r v hr

theorem within_beginRestart (cause : RestartCause) (h : ActiveWithinLimits s) :
    ActiveWithinLimits (beginRestart cause s) := by
  have afresh : ∀ c, ActiveWithinLimits (beginAfresh c s) := by
    intro c d r v hr
    have hnone : recordGet State.reset.districts d = none := by
      cases d with
      | zero => rfl
      | succ i =>
        simp only [State.reset, recordGet, tableGet, Vector.getElem?_replicate]
        split <;> rfl
    exact absurd (hnone.symm.trans hr) nofun
  cases cause with
  | power => exact afresh .power
  | cold => exact afresh .cold
  | warm => exact within_mapRecords (f := District.restarted) rfl (fun _ => ⟨rfl, rfl, rfl, rfl⟩) h

theorem within_beginPending (h : ActiveWithinLimits s) : ActiveWithinLimits (beginPending s) := by
  unfold beginPending
  split
  · exact within_beginRestart _ h
  · exact h

theorem within_resumeClosure (k : Nat) (h : ActiveWithinLimits s) : ActiveWithinLimits (resumeClosure s k) := by
  unfold resumeClosure
  split
  · exact h
  · exact within_of_districts (serve_districts _ _) (within_handOver k h)

theorem startLocal_districts (s : State) : (startLocal s).districts = s.districts := by
  unfold startLocal
  split <;> rfl

theorem within_completeRestart (h : ActiveWithinLimits s) : ActiveWithinLimits (completeRestart s) := by
  unfold completeRestart
  split
  · refine within_foldl (fun _ k h => within_resumeClosure k h) _ ?_
    have hstarted := within_of_districts (startLocal_districts (startWaiting (startPorts s)))
      (within_of_districts (by rfl) h)
    exact within_mapRecords rfl (fun _ => ⟨rfl, rfl, rfl, rfl⟩) hstarted
  · exact h

theorem within_endTransmission (p : Port) (h : ActiveWithinLimits s) : ActiveWithinLimits (endTransmission p s) := by
  unfold endTransmission
  split
  · exact h
  · rename_i x _
    have hsent : ActiveWithinLimits (separate p (freeBuffer x.buffer (handCopyEnd x.tag
        (s.modPort p (fun q => { q with sent := countUp q.sent }))))) := by
      refine within_of_districts ?_ h
      unfold separate handCopyEnd
      split <;> simp
    unfold restartAfter
    dsimp only
    split
    · exact within_beginPending hsent
    · exact hsent

/-! ### Commands -/

theorem within_arrival {arises : State → Bool} {act : State → State} (k : arrival arises act s = .next t)
    (h : ActiveWithinLimits s) (hact : ActiveWithinLimits (act s)) : ActiveWithinLimits t := by
  obtain rfl | ⟨-, -, rfl⟩ := arrival_cases k
  · exact h
  · exact hact

theorem within_request {code : Nat} {perform : List Byte → State → Performed} (k : request code perform s = .next t)
    (hp : ∀ f s, ActiveWithinLimits s → ActiveWithinLimits (perform f s).state) (h : ActiveWithinLimits s) :
    ActiveWithinLimits t := by
  refine within_arrival k h ?_
  unfold answerRequest
  split
  · exact h
  · rename_i hr
    exact within_of_districts ((drain_districts _).trans (enqueue_districts _ _ _ _))
      (hp _ _ (within_of_districts (takeReceived_districts hr) h))

/-- An arrival that leaves the districts. -/
theorem within_arrival_of_districts {arises : State → Bool} {act : State → State} (k : arrival arises act s = .next t)
    (e : (act s).districts = s.districts) (h : ActiveWithinLimits s) : ActiveWithinLimits t :=
  within_arrival k h (within_of_districts e h)

/-- A request whose action keeps the limits whatever its checks. -/
theorem within_judged (checks : List (Bool × ResultCode)) {act : State → State}
    (hact : ActiveWithinLimits s → ActiveWithinLimits (act s)) (h : ActiveWithinLimits s) :
    ActiveWithinLimits (judge checks act s).state := within_judge (fun _ => hact h) h

theorem loadSettings_districts (f : List Byte) (s : State) : (loadSettings f s).state.districts = s.districts := by
  unfold loadSettings judge
  split
  · rfl
  · dsimp only
    split <;> simp [storeSettings]

theorem within_exec {c : Instr} (k : exec c s = .next t) (h : ActiveWithinLimits s) : ActiveWithinLimits t := by
  cases c with
  | powerOn =>
    cases k
    exact within_beginRestart .power h
  | restartComplete =>
    cases k
    split
    · exact within_completeRestart h
    · exact h
  | receptionStart p o b => exact within_arrival_of_districts k (startReception_districts s p o b) h
  | octetArrives p o b =>
    exact within_arrival_of_districts (show execOctetArrives p o b s = _ from k) (takeOctet_districts s p o b) h
  | frameEnd p => exact within_arrival_of_districts (show execFrameEnd p s = _ from k) (endFrame_districts s p) h
  | transmitStart p => exact within_arrival_of_districts k (by rfl) h
  | transmissionComplete p =>
    exact within_arrival (show execTransmissionComplete p s = _ from k) h (within_endTransmission p h)
  | separationExpiry p => exact within_arrival_of_districts k (by rfl) h
  | repeatTimerExpiry =>
    exact within_arrival_of_districts (show execRepeatTimerExpiry s = _ from k)
      (LineOnly.refl s).sendHold.holdingTest.districts h
  | sample p => exact within_arrival k h (within_passField p (fun r b _ => within_passSample r b) h)
  | reply p => exact within_arrival k h (within_passField p (fun r b _ => within_passReply r b) h)
  | officeCommand => exact within_arrival_of_districts k (passOffice_districts s) h
  | waitingTimerExpiry a =>
    exact within_arrival (show execWaitingTimerExpiry a s = _ from k) h (within_goSilent a h)
  | agingTimerExpiry a =>
    exact within_arrival_of_districts (show execAgingTimerExpiry a s = _ from k) (by rfl) h
  | orderSend a => exact within_arrival_of_districts k (attemptSend_districts s a) h
  | replyTimerExpiry a => exact within_arrival k h (within_replyTimerExpired a h)
  | reportSend =>
    exact within_arrival_of_districts (show execReportSend s = _ from k) (sendReports_districts _ _ s) h
  | stepTimerExpiry d =>
    exact within_arrival (show execStepTimerExpiry d s = _ from k) h (within_stepBoundary (elsewhere_of_within d h))
  | fogTimerExpiry d => exact within_arrival (show execFogTimerExpiry d s = _ from k) h (within_setFog 0 0 d h)
  | clockSecond =>
    cases k
    split
    · exact within_of_districts (advanceClock_districts s) h
    · exact h
  | wholeHour => exact within_arrival_of_districts (show execWholeHour s = _ from k) (takeHourDue_districts s) h
  | settleTimerExpiry => exact within_arrival_of_districts (show execSettleTimerExpiry s = _ from k) (by rfl) h
  | scanTimerExpiry => exact within_arrival_of_districts (show execScanTimerExpiry s = _ from k) (by rfl) h
  | scanComplete c0 c1 c2 c3 => exact within_arrival k h (within_finishScan _ h)
  | loadSettings => exact within_request k (fun f s => within_of_districts (loadSettings_districts f s)) h
  | loadStation =>
    exact within_request k (fun _ _ => within_judged _ (within_of_districts (storeStation_districts _ _))) h
  | dropStation => exact within_request k (fun _ _ => within_judged _ (within_removeStation _)) h
  | loadPoint => exact within_request k (fun f _ => within_judged _ (within_storePoint f)) h
  | dropPoint =>
    exact within_request k (fun _ _ => within_judged _ (fun h => within_handNone _ _ (within_of_districts (by rfl) h))) h
  | loadVapour => exact within_request k (fun _ _ => within_judged _ (within_of_districts (by rfl))) h
  | loadLocal => exact within_request k (fun _ _ => within_judged _ (within_setLocal _ _ _)) h
  | loadHolder => exact within_request k (fun f _ => within_judged _ (within_storeHolder f)) h
  | loadLift => exact within_request k (fun _ _ => within_judged _ (within_of_districts (storeLift_districts _ _ _ _))) h
  | holderService => exact within_request k (fun _ _ => within_judged _ (within_setService _ _)) h
  | loadDistrict => exact within_request k (fun f _ => within_loadDistrict f) h
  | loadProfile => exact within_request k (fun _ _ => within_judged _ (within_storeProfile _ _)) h
  | stepNow =>
    exact within_request k (fun _ _ => within_judged _ (fun h => within_stepBoundary (elsewhere_of_within _ h))) h
  | districtMode => exact within_request k (fun _ _ => within_judged _ (within_changeMode _ _)) h
  | fog =>
    exact within_request k (fun _ _ => within_judged _ (within_foldl (fun _ d => within_setFog _ _ d) _)) h
  | loadMeter => exact within_request k (fun f _ => within_judged _ (within_of_districts (storeMeter_districts f _))) h
  | setClock => exact within_request k (fun f s => within_of_districts (setClock_districts f s)) h
  | collectDay => exact within_request k (fun _ _ => within_judged _ (within_of_districts (clearAlarm_districts _ _))) h
  | read => exact within_request k (fun f s => within_of_districts (readRequest_districts f s)) h
  | ackAlarm => exact within_request k (fun _ _ => within_judged _ (within_of_districts (acknowledge_districts _ _))) h
  | reset => exact within_request k (fun _ _ => within_judged _ (within_of_districts (by rfl))) h
  | resetTimerExpiry => exact within_arrival (show execResetTimerExpiry s = _ from k) h (within_beginPending h)

end Within

/-- Settles O58: every command keeps the limits; the clamp and the step computation restore them where a limit falls or
AUTO is entered. -/
theorem activeStaysWithinLimits : Obligations.ActiveStaysWithinLimits := by
  intro s t k h
  unfold step at k
  split at k
  · cases k
    exact h
  · exact within_exec k (within_of_districts (by rfl) h)

end Sys2Proof.Setpoints
end

section
/-! SUPPORT. The statements about step boundaries and step computations. -/

namespace Sys2Proof.Districts

open Sys2Proof Sys2Proof.Machine Sys2Proof.Claims Sys2Proof.Laws Sys2Proof.Points

/-! ### Step boundaries (R85) -/

theorem execStepTimerExpiry_of_running {d n : Nat} {s : State} {r : District} (hs : isRestarting s = false)
    (hr : s.district d = some r) (hn : r.stepTimer = .running n) :
    exec (.stepTimerExpiry d) s = .next (boundary d s) := by
  change execStepTimerExpiry d s = _
  rw [execStepTimerExpiry, arrival_acts hs (by simp [hr, hn, Timer.runs]), stepBoundary_eq_boundary]

theorem outside_iff (lo hi v : Nat) : outside lo hi v = true ↔ v < lo ∨ hi < v := decide_eq_true_iff

/-- Settles O26: the expiry of a step timer that runs arises; STEP-NOW by the first of its three checks that fails. -/
theorem stepBoundaryIsPerformed : Obligations.StepBoundaryIsPerformed := by
  refine ⟨fun d n s r => execStepTimerExpiry_of_running, ?_⟩
  intro f r s u h
  have performed : ∀ {result : ResultCode} {v : State}, stepNow f u = ⟨result, [], v⟩ →
      exec .stepNow s = .next (answered r 13 result [] v) := request_of_performed h (by decide) (by decide)
  have hrange := outside_iff 1 6 (octetAt f 0)
  dsimp only
  split_ifs with hlength hd hn
  · exact performed (judge_fails (firstFailure_here (bne_iff_ne.mpr hlength)) _ _)
  · exact performed (judge_fails ((firstFailure_next (mt bne_iff_ne.mp hlength)).trans
      (firstFailure_here (hrange.mpr hd))) _ _)
  · exact performed (judge_fails ((firstFailure_next (mt bne_iff_ne.mp hlength)).trans
      ((firstFailure_next (mt hrange.mp hd)).trans (firstFailure_here (Option.isNone_iff_eq_none.mpr hn)))) _ _)
  · rw [← stepBoundary_eq_boundary]
    exact performed (judge_accepts ((firstFailure_next (mt bne_iff_ne.mp hlength)).trans
      ((firstFailure_next (mt hrange.mp hd)).trans (firstFailure_next (mt Option.isNone_iff_eq_none.mp hn)))) _ _)

/-! ### What a step computation forms (R87 to R92) -/

theorem newCorrection_eq_correctionOf (r : District) (s : State) : newCorrection r s = correctionOf r s := by
  unfold newCorrection correctionOf
  cases r.tellTalePoint with
  | none => rfl
  | some n =>
    cases hp : s.point n with
    | none => simp [hp]
    | some p =>
      cases hq : p.quality <;> cases hv : p.value <;> simp [hp, hq, hv]

theorem loadRaise_eq_raiseOf (d : Nat) (r : District) (s : State) : loadRaise d r s = raiseOf d r s := by
  unfold loadRaise districtRate raiseOf
  cases r.outletMeter.bind s.meter <;> rfl

theorem slewed_eq_slewedTo (r : District) (target : Nat) : slewed r target = slewedTo r target := by
  unfold slewed slewedTo
  cases r.active <;> rfl

/-- R91: DISTRICT-SHORT judged, in the statement's words. -/
theorem judgeShort_eq (d : Nat) (r : District) (bounded : Nat) (s : State) :
    judgeShort d r bounded s =
      if r.supplied = false then s
      else if r.supplyLimit < bounded ∧ r.supplyLimit < r.minimum then raised .districtShort d s
      else cleared .districtShort d s := by
  unfold judgeShort
  cases r.supplied <;> rfl

/-! ### What a step computation leaves of its district's record -/

/-- R92: the active setpoint written. -/
theorem writeActive_district {d : Nat} (v : Nat) {s : State} {r : District} (hr : s.district d = some r) :
    (writeActive d v s).district d = some { r with active := some v } := by
  unfold writeActive
  simp only [hr]
  split
  · rename_i hsame
    rw [hr, ← hsame]
  · exact (district_of_districts (handActive_districts _ d v) d).trans (putDistrict_self _ hr)

/-- R65, R93: the send decision writes at most the set-failed flag. -/
theorem sendDecision_district {d : Nat} {s : State} {r : District} (hr : s.district d = some r) :
    ∃ flag, (sendDecision d s).district d = some { r with setFailed := flag } := by
  unfold sendDecision
  simp only [hr]
  split
  · exact ⟨r.setFailed, hr⟩
  · rename_i v _
    split
    · unfold issueSet
      simp only [hr]
      split
      · rw [setFailed_eq hr]
        exact ⟨true, putDistrict_self _ (((RecordsOnly.raiseAlarm _ s).district d).trans hr)⟩
      · exact ⟨r.setFailed, (district_of_districts (placeSet_districts s _ d v) d).trans hr⟩
    · exact ⟨r.setFailed, hr⟩

/-- Settles O27: the values formed are the statement's, and the writes are read back through DISTRICT-SHORT and the send
decision, which leave them. -/
theorem stepComputes : Obligations.StepComputes := by
  intro d s r hr c sum bounded target active w judged
  have hjudged : judgeShort d { r with correction := c, lastTarget := some target } bounded w = judged :=
    judgeShort_eq d _ bounded w
  have hwhole : stepComputation d s = sendDecision d (writeActive d active judged) := by
    unfold stepComputation
    simp only [hr, newCorrection_eq_correctionOf, loadRaise_eq_raiseOf, newActive, slewed_eq_slewedTo]
    rw [← hjudged]
    rfl
  refine ⟨?_, ?_⟩
  · have hloaded : judged.district d = some { r with correction := c, lastTarget := some target } := by
      rw [← hjudged, district_of_districts (judgeShort_districts w d _ bounded)]
      exact putDistrict_self _ hr
    rw [hwhole]
    exact sendDecision_district (writeActive_district active hloaded)
  · rw [hwhole, writeActive_eq_activeWritten, sendDecision_eq_sendDecided]

end Sys2Proof.Districts
end

section
/-! SUPPORT. The statements about FOG, LOAD-PROFILE and LOAD-DISTRICT. -/

namespace Sys2Proof.Districts

open Sys2Proof Sys2Proof.Machine Sys2Proof.Claims Sys2Proof.Laws Sys2Proof.Points

/-! ### FOG (R90) -/

/-- R90: a record with the raise and its expiry. -/
def fogged (raise duration : Nat) (q : District) : District :=
  { q with fogRaise := raise, fogTimer := if raise = 0 ∨ duration = 0 then .stopped else .running duration }

section Fog

variable (raise duration : Nat)

theorem setFog_eq (s : State) (d : Nat) :
    setFog raise duration s d = match s.district d with
      | none => s
      | some r => s.putDistrict d (fogged raise duration r) := rfl

theorem setFog_only (s : State) (d : Nat) :
    setFog raise duration s d = { s with districts := (setFog raise duration s d).districts } := by
  rw [setFog_eq]
  cases s.district d <;> rfl

/-- R90: the record of the district named takes the raise. -/
theorem setFog_district (s : State) (d k : Nat) :
    (setFog raise duration s d).district k =
      if k = d then (s.district k).map (fogged raise duration) else s.district k := by
  rw [setFog_eq]
  cases hd : s.district d with
  | none =>
    dsimp only
    split
    · rename_i hk
      rw [hk, hd, Option.map_none]
    · rfl
  | some r =>
    dsimp only
    split
    · rename_i hk
      rw [hk, putDistrict_self _ hd, hd, Option.map_some]
    · rename_i hk
      rw [putDistrict_district, if_neg (fun h => hk h.1.symm)]

theorem foldl_setFog_only (l : List Nat) (s : State) :
    l.foldl (setFog raise duration) s = { s with districts := (l.foldl (setFog raise duration) s).districts } := by
  induction l generalizing s with
  | nil => rfl
  | cons d l ih =>
    rw [List.foldl_cons, ih, setFog_only]

/-- R90: the records of the districts listed take the raise; a second taking changes nothing. -/
theorem foldl_setFog_district (l : List Nat) (s : State) (k : Nat) :
    (l.foldl (setFog raise duration) s).district k =
      if k ∈ l then (s.district k).map (fogged raise duration) else s.district k := by
  have htwice : fogged raise duration ∘ fogged raise duration = fogged raise duration := rfl
  induction l generalizing s with
  | nil => simp
  | cons d l ih =>
    rw [List.foldl_cons, ih, setFog_district]
    by_cases hd : k = d <;> by_cases hl : k ∈ l <;> simp [hd, hl, htwice]

end Fog

/-- R90: the districts that FOG names, where they are loaded. -/
theorem mem_fogDistricts (d k : Nat) (s : State) :
    k ∈ fogDistricts d s ↔ (d = 0 ∨ k = d) ∧ (s.district k).isSome = true := by
  unfold fogDistricts
  rw [List.mem_filter]
  refine and_congr_left fun hloaded => ?_
  obtain ⟨q, hq⟩ := Option.isSome_iff_exists.mp hloaded
  have := recordGet_some_le hq
  split
  · rename_i hd
    simp [hd]
    omega
  · rename_i hd
    simp [hd]

theorem fogDistricts_isEmpty_iff (d : Nat) (s : State) :
    (fogDistricts d s).isEmpty = true ↔ ∀ k, d = 0 ∨ k = d → s.district k = none := by
  rw [List.isEmpty_iff, List.eq_nil_iff_forall_not_mem]
  refine forall_congr' fun k => ?_
  rw [mem_fogDistricts, not_and, Option.not_isSome_iff_eq_none]

/-- R90: the records after a FOG. -/
theorem fog_district (d raise duration k : Nat) (s : State) :
    ((fogDistricts d s).foldl (setFog raise duration) s).district k =
      (s.district k).map (fun q => if d = 0 ∨ k = d then fogged raise duration q else q) := by
  rw [foldl_setFog_district, if_congr (mem_fogDistricts d k s) rfl rfl]
  cases s.district k with
  | none => simp
  | some q => by_cases hk : d = 0 ∨ k = d <;> simp [hk]

theorem execFogTimerExpiry_of_running {d n : Nat} {s : State} {r : District} (hs : isRestarting s = false)
    (hr : s.district d = some r) (hn : r.fogTimer = .running n) :
    exec (.fogTimerExpiry d) s = .next (s.putDistrict d { r with fogRaise := 0, fogTimer := .stopped }) := by
  change execFogTimerExpiry d s = _
  rw [execFogTimerExpiry, arrival_acts hs (by simp [hr, hn, Timer.runs]), setFog_eq, hr]
  rfl

theorem fog_range_iff (d raise duration : Nat) :
    (decide (6 < d) || decide (1000 < raise) || decide (720 < duration)) = true ↔
      6 < d ∨ 1000 < raise ∨ 720 < duration := by
  simp [or_assoc]

/-- Settles O29: the expiry of a fog timer that runs arises; FOG by the first of its three checks that fails, or the
records of the districts it names read back. -/
theorem fogActs : Obligations.FogActs := by
  refine ⟨fun d n s r => execFogTimerExpiry_of_running, ?_⟩
  intro f r s u h d raise duration answer wrong named
  have performed : ∀ {result : ResultCode} {v : State}, fog f u = ⟨result, [], v⟩ → answer result v :=
    request_of_performed h (by decide) (by decide)
  unfold fog at performed
  have hformat : f.length = 5 → (f.length != 5) ≠ true := fun hlength => by simp [hlength]
  have hrange := fog_range_iff d raise duration
  have hempty := fogDistricts_isEmpty_iff d u
  refine ⟨fun hlength => performed ?_, fun hlength hw => performed ?_, fun hlength hw hn => performed ?_,
    fun hlength hw hsome => ⟨_, performed ?_, fun k => fog_district d raise duration k u⟩⟩
  · exact judge_fails (firstFailure_here (bne_iff_ne.mpr hlength)) _ _
  · exact judge_fails ((firstFailure_next (hformat hlength)).trans (firstFailure_here (hrange.mpr hw))) _ _
  · exact judge_fails ((firstFailure_next (hformat hlength)).trans ((firstFailure_next (mt hrange.mp hw)).trans
      (firstFailure_here (hempty.mpr hn)))) _ _
  · have hloaded : (fogDistricts d u).isEmpty ≠ true := by
      obtain ⟨k, q, hk, hq⟩ := hsome
      intro hn
      simp [hempty.mp hn k hk] at hq
    rw [← foldl_setFog_only]
    exact judge_accepts ((firstFailure_next (hformat hlength)).trans ((firstFailure_next (mt hrange.mp hw)).trans
      (firstFailure_next hloaded))) _ _

/-! ### LOAD_PROFILE (R84) -/

theorem badBreakpoints_iff (bs : List Breakpoint) :
    badBreakpoints bs = true ↔
      (∃ b ∈ bs, 1439 < b.minute ∨ 10000 < b.pressure) ∨ ¬ (bs.map (·.minute)).Pairwise (· < ·) := by
  unfold badBreakpoints
  rw [Bool.or_eq_true, Bool.not_eq_true', ← Bool.not_eq_true, Holders.strictlyRising_iff]
  simp

theorem loadProfile_range_iff (d n : Nat) (bs : List Breakpoint) :
    (outside 1 6 d || decide (12 < n) || badBreakpoints bs) = true ↔
      d < 1 ∨ 6 < d ∨ 12 < n ∨ (∃ b ∈ bs, 1439 < b.minute ∨ 10000 < b.pressure) ∨
        ¬ (bs.map (·.minute)).Pairwise (· < ·) := by
  rw [Bool.or_eq_true, badBreakpoints_iff]
  simp [outside, or_assoc]

/-- Settles O44: the first of the four checks that fails, or the next profile stored. -/
theorem loadProfileActs : Obligations.LoadProfileActs := by
  intro f r s u h d n points answer wrong
  have performed : ∀ {result : ResultCode} {v : State}, loadProfile f u = ⟨result, [], v⟩ → answer result v :=
    request_of_performed h (by decide) (by decide)
  have hformat : f.length = 2 + 4 * n → (f.length != 2 + 4 * n) ≠ true := fun hlength => by simp [hlength]
  have hrange := loadProfile_range_iff d n points
  refine ⟨fun hlength => performed (judge_fails (firstFailure_here (bne_iff_ne.mpr hlength)) _ _),
    fun hlength hw => performed (judge_fails ((firstFailure_next (hformat hlength)).trans
      (firstFailure_here (hrange.mpr hw))) _ _), fun hlength hw => ?_⟩
  have hpassed : ∀ rest, firstFailure ((_, .badFormat) :: (_, .outOfRange) :: rest) = firstFailure rest := fun rest =>
    (firstFailure_next (hformat hlength)).trans (firstFailure_next (mt hrange.mp hw))
  refine ⟨fun hn => performed (judge_fails ((hpassed _).trans (firstFailure_here (by rw [hn]; rfl))) _ _),
    fun q hq => ?_⟩
  have hloaded : (u.district d).isNone ≠ true := by simp [hq]
  have hallowed : (n == 0 && (u.district d).any (fun r => r.mode == .auto)) = true ↔ n = 0 ∧ q.mode = .auto := by
    simp [hq]
  split_ifs with hempty
  · exact performed (judge_fails ((hpassed _).trans ((firstFailure_next hloaded).trans
      (firstFailure_here (hallowed.mpr hempty)))) _ _)
  · have hstored : storeProfile d points u = u.putDistrict d { q with nextProfile := points, nextPending := true } := by
      simp only [storeProfile, hq]
    rw [← hstored]
    exact performed (judge_accepts ((hpassed _).trans ((firstFailure_next hloaded).trans
      (firstFailure_next (mt hallowed.mp hempty)))) _ _)

/-! ### LOAD_DISTRICT (R79, R80, R98) -/

theorem badDistrictField_iff (f : List Byte) : badDistrictField f = true ↔ ¬ districtFieldsFit f := by
  simp only [badDistrictField, districtFieldsFit, mayBePoint, Bool.or_eq_true, Bool.and_eq_true, bne_iff_ne, outside,
    badPoint, decide_eq_true_eq]
  omega

theorem holderOfStation_isSome_iff (a : Nat) (s : State) :
    (s.holderOfStation a).isSome = true ↔ ∃ h q, s.holder h = some q ∧ q.valveStation = a := by
  unfold State.holderOfStation
  rw [List.find?_isSome, ← List.any_eq_true]
  simpa using any_holder_iff s (fun q => q.valveStation == a)

/-- R98: the governor station or the outlet meter is taken. -/
theorem districtTaken_iff (d a : Nat) (meter : Option Nat) (s : State) :
    districtTaken d a meter s = true ↔
      (∃ k q, k ≠ d ∧ s.district k = some q ∧ (q.governor = a ∨ meter ≠ none ∧ q.outletMeter = meter)) ∨
        ∃ h q, s.holder h = some q ∧ q.valveStation = a := by
  unfold districtTaken
  rw [Bool.or_eq_true, holderOfStation_isSome_iff]
  refine or_congr_left ?_
  simp only [List.any_eq_true, Bool.and_eq_true, Bool.or_eq_true, Option.any_eq_true, bne_iff_ne, beq_iff_eq,
    Option.isSome_iff_ne_none]
  constructor
  · rintro ⟨k, -, hne, q, hq, htaken⟩
    exact ⟨k, q, hne, hq, htaken⟩
  · rintro ⟨k, q, hne, hq, htaken⟩
    have := recordGet_some_le hq
    exact ⟨k, by simp; omega, hne, q, hq, htaken⟩

/-- R80, R97: what LOAD-DISTRICT performs for a record loaded for the first time. -/
theorem storeDistrict_first {f : List Byte} {s : State} (hn : s.district (octetAt f 0) = none) :
    storeDistrict f s =
      let supply := supplyFrom (octetAt f 0) (field f 6 2) s
      let v := s.putDistrict (octetAt f 0) (districtFresh f supply.1 supply.2)
      if supply.2 then v else raiseAlarm ⟨.districtUnsupplied, octetAt f 0, none⟩ v := by
  simp only [storeDistrict, hn, firstLoad, supplyOf_eq_supplyFrom]
  rfl

/-- R98: what LOAD-DISTRICT performs for a loaded record. -/
theorem storeDistrict_again {f : List Byte} {s : State} {q : District} (hq : s.district (octetAt f 0) = some q) :
    storeDistrict f s =
      let x := districtConfigured f q
      let x := if x.governor = q.governor then x
        else { x with lastSent := none, reportedSetpoint := none, releasedMark := none, setFailed := false }
      districtRecomputed (s.putDistrict (octetAt f 0) x) (octetAt f 0) := by
  simp only [storeDistrict, hq, recomputeDistrict_eq_districtRecomputed]
  rfl

/-- Settles O43: the first of the four checks that fails, or the record stored, by whether it was loaded. -/
theorem loadDistrictActs : Obligations.LoadDistrictActs := by
  intro f r s u h d meter answer taken
  have performed : ∀ {result : ResultCode} {v : State}, loadDistrict f u = ⟨result, [], v⟩ → answer result v :=
    request_of_performed h (by decide) (by decide)
  have hformat : f.length = 28 → (f.length != 28) ≠ true := fun hlength => by simp [hlength]
  have hrange := badDistrictField_iff f
  have htaken : districtTaken d (octetAt f 1) meter u = true ↔ taken := districtTaken_iff d (octetAt f 1) meter u
  refine ⟨fun hlength => performed (judge_fails (firstFailure_here (bne_iff_ne.mpr hlength)) _ _),
    fun hlength hw => performed (judge_fails ((firstFailure_next (hformat hlength)).trans
      (firstFailure_here (hrange.mpr hw))) _ _),
    fun hlength hw ht => performed (judge_fails ((firstFailure_next (hformat hlength)).trans
      ((firstFailure_next (mt hrange.mp (not_not_intro hw))).trans (firstFailure_here (htaken.mpr ht)))) _ _),
    fun hlength hw ht => ?_⟩
  have hpassed : ∀ rest, firstFailure ((_, .badFormat) :: (_, .outOfRange) :: (_, .duplicate) :: rest)
      = firstFailure rest := fun rest =>
    (firstFailure_next (hformat hlength)).trans ((firstFailure_next (mt hrange.mp (not_not_intro hw))).trans
      (firstFailure_next (mt htaken.mp ht)))
  have accepted : (u.district d).any (fun r => r.mode == .auto) ≠ true →
      answer .accepted (storeDistrict f u) := fun hmode =>
    performed (judge_accepts ((hpassed _).trans (firstFailure_next hmode)) _ _)
  refine ⟨fun hn => ?_, fun q hq => ⟨fun hauto => ?_, fun hmode => ?_⟩⟩
  · have hfirst := accepted (by simp [hn])
    rwa [storeDistrict_first hn] at hfirst
  · have hbusy : (u.district d).any (fun r => r.mode == .auto) = true := by simp [hq, hauto]
    exact performed (judge_fails ((hpassed _).trans (firstFailure_here hbusy)) _ _)
  · have hagain := accepted (by simp [hq, hmode])
    rwa [storeDistrict_again hq] at hagain

end Sys2Proof.Districts
end

section
/-! SUPPORT. The statement about the profile pressure: the breakpoints around a minute, and the rounded line between
them. -/

namespace Sys2Proof.Profiles

open Sys2Proof Sys2Proof.Machine

/-! ### The rounded line between two breakpoints (R87) -/

/-- A time of the model's, 1,440 minutes late, and the pressure there. -/
abbrev Knot := Nat × Nat

/-- R87: the rounded line between two knots, at a time between them. -/
def lineAt (a b : Knot) (t : Nat) : Nat := rounded (a.2 * (b.1 - t) + b.2 * (t - a.1)) (b.1 - a.1)

section Line

variable {a b : Knot} {t m : Nat}

/-- The line in whole numbers, its times taken 1,440 minutes earlier. -/
theorem lineAt_eq {ta tb : Int} (ha : (a.1 : Int) = ta + 1440) (hb : (b.1 : Int) = tb + 1440) (hle : a.1 ≤ m + 1440)
    (hlt : m + 1440 < b.1) :
    (lineAt a b (m + 1440) : Int)
      = (2 * (a.2 * (tb - m) + b.2 * (m - ta)) + (tb - ta)) / (2 * (tb - ta)) := by
  have hrest : ((b.1 - (m + 1440) : Nat) : Int) = tb - m := by omega
  have hpast : ((m + 1440 - a.1 : Nat) : Int) = m - ta := by omega
  have hspan : ((b.1 - a.1 : Nat) : Int) = tb - ta := by omega
  unfold lineAt rounded
  push_cast
  rw [hrest, hpast, hspan]

/-- At its first knot the line has that knot's pressure. -/
theorem lineAt_start (h : t < b.1) (p : Nat) : lineAt (t, p) b t = p := by
  have hspan : 0 < 2 * (b.1 - t) := by omega
  unfold lineAt rounded
  dsimp only
  rw [Nat.sub_self, Nat.mul_zero, Nat.add_zero, show 2 * (p * (b.1 - t)) = p * (2 * (b.1 - t)) by ring,
    Nat.add_comm, Nat.add_mul_div_right _ _ hspan, Nat.div_eq_of_lt (by omega), Nat.zero_add]

/-- A bound on both pressures bounds the line between them. -/
theorem lineAt_le {p : Nat} (ha : a.2 ≤ p) (hb : b.2 ≤ p) (hle : a.1 ≤ t) (hlt : t < b.1) : lineAt a b t ≤ p := by
  have hsum : a.2 * (b.1 - t) + b.2 * (t - a.1) ≤ p * (b.1 - a.1) := by
    calc a.2 * (b.1 - t) + b.2 * (t - a.1)
        ≤ p * (b.1 - t) + p * (t - a.1) := by gcongr
      _ = p * (b.1 - a.1) := by rw [← Nat.mul_add]; congr 1; omega
  have hspan : 0 < 2 * (b.1 - a.1) := by omega
  unfold lineAt rounded
  refine Nat.lt_succ_iff.mp ((Nat.div_lt_iff_lt_mul hspan).mpr ?_)
  calc 2 * (a.2 * (b.1 - t) + b.2 * (t - a.1)) + (b.1 - a.1)
      < 2 * (p * (b.1 - a.1)) + 2 * (b.1 - a.1) := by omega
    _ = (p + 1) * (2 * (b.1 - a.1)) := by ring

end Line

/-! ### The breakpoints around a minute (R87) -/

/-- R87: the latest breakpoint not after a minute, or yesterday's last. -/
def knotBefore (first : Breakpoint) (rest : List Breakpoint) (m : Nat) : Knot :=
  match ((first :: rest).filter (fun b => b.minute ≤ m)).getLast? with
  | some b => (b.minute + 1440, b.pressure)
  | none => ((rest.getLastD first).minute, (rest.getLastD first).pressure)

/-- R87: the first breakpoint after a minute, or tomorrow's first. -/
def knotAfter (first : Breakpoint) (rest : List Breakpoint) (m : Nat) : Knot :=
  match (first :: rest).find? (fun b => m < b.minute) with
  | some b => (b.minute + 1440, b.pressure)
  | none => (first.minute + 2880, first.pressure)

/-- R87: the profile pressure of two breakpoints or more. -/
theorem profilePressure_eq_lineAt {first : Breakpoint} {rest : List Breakpoint} (h : rest ≠ []) (m : Nat) :
    profilePressure (first :: rest) m = lineAt (knotBefore first rest m) (knotAfter first rest m) (m + 1440) := by
  obtain ⟨second, rest, rfl⟩ := List.exists_cons_of_ne_nil h
  rfl

section Knots

variable {first : Breakpoint} {rest : List Breakpoint} {m : Nat}

theorem knotBefore_of_split {early late : List Breakpoint} {a : Breakpoint} (h : first :: rest = early ++ a :: late)
    (ha : a.minute ≤ m) (hlate : ∀ b ∈ late, m < b.minute) :
    knotBefore first rest m = (a.minute + 1440, a.pressure) := by
  have hnone : late.filter (fun b => b.minute ≤ m) = [] := by
    simpa [List.filter_eq_nil_iff] using hlate
  have hlast : ((first :: rest).filter (fun b => b.minute ≤ m)).getLast? = some a := by
    rw [h, List.filter_append, List.filter_cons_of_pos (by simpa using ha), hnone]
    simp
  unfold knotBefore
  rw [hlast]

theorem knotBefore_of_late (h : ∀ b ∈ first :: rest, m < b.minute) :
    knotBefore first rest m = ((rest.getLastD first).minute, (rest.getLastD first).pressure) := by
  have hnone : (first :: rest).filter (fun b => b.minute ≤ m) = [] := by
    simpa [List.filter_eq_nil_iff] using h
  unfold knotBefore
  rw [hnone]
  rfl

theorem knotAfter_of_split {early late : List Breakpoint} {b : Breakpoint} (h : first :: rest = early ++ b :: late)
    (hearly : ∀ a ∈ early, a.minute ≤ m) (hb : m < b.minute) :
    knotAfter first rest m = (b.minute + 1440, b.pressure) := by
  have hfound : (first :: rest).find? (fun b => m < b.minute) = some b := by
    rw [h, List.find?_append, List.find?_eq_none.mpr (by simpa using hearly)]
    simp [hb]
  unfold knotAfter
  rw [hfound]

theorem knotAfter_of_early (h : ∀ b ∈ first :: rest, b.minute ≤ m) :
    knotAfter first rest m = (first.minute + 2880, first.pressure) := by
  have hnone : (first :: rest).find? (fun b => m < b.minute) = none := List.find?_eq_none.mpr (by simpa using h)
  unfold knotAfter
  rw [hnone]

/-- The knot before a minute lies not after it, and has a breakpoint's pressure. -/
theorem knotBefore_bounds {p : Nat} (h : ∀ b ∈ first :: rest, b.minute ≤ 1439 ∧ b.pressure ≤ p) :
    (knotBefore first rest m).1 ≤ m + 1440 ∧ (knotBefore first rest m).2 ≤ p := by
  unfold knotBefore
  split
  · rename_i b hb
    obtain ⟨hmem, hle⟩ := List.mem_filter.mp (List.mem_of_getLast? hb)
    have hpressure := (h b hmem).2
    simp only [decide_eq_true_eq] at hle
    dsimp only
    omega
  · have hlast := h (rest.getLastD first) (by cases rest <;> simp [List.getLastD])
    dsimp only
    omega

/-- The knot after a minute of the day lies after it, and has a breakpoint's pressure. -/
theorem knotAfter_bounds {p : Nat} (hm : m ≤ 1439) (h : ∀ b ∈ first :: rest, b.minute ≤ 1439 ∧ b.pressure ≤ p) :
    m + 1440 < (knotAfter first rest m).1 ∧ (knotAfter first rest m).2 ≤ p := by
  unfold knotAfter
  split
  · rename_i b hb
    have hpressure := (h b (List.mem_of_find?_eq_some hb)).2
    have hlt := List.find?_some hb
    simp only [decide_eq_true_eq] at hlt
    dsimp only
    omega
  · have hfirst := (h first List.mem_cons_self).2
    dsimp only
    omega

end Knots

/-! ### Rising profiles -/

section Rising

variable {early late : List Breakpoint} {b : Breakpoint}

/-- In a rising profile the breakpoints before one are earlier than it, and those after it later. -/
theorem rising_split (h : ((early ++ b :: late).map (·.minute)).Pairwise (· < ·)) :
    (∀ a ∈ early, a.minute < b.minute) ∧ ∀ c ∈ late, b.minute < c.minute := by
  rw [List.pairwise_map, List.pairwise_append] at h
  obtain ⟨-, hlate, hearly⟩ := h
  exact ⟨fun a ha => hearly a ha b List.mem_cons_self, (List.pairwise_cons.mp hlate).1⟩

end Rising

section Pressure

variable {profile : List Breakpoint} {m : Nat}

/-- R87: between two breakpoints of one day. -/
theorem profilePressure_between {before after : List Breakpoint} {a b : Breakpoint}
    (hrising : ((before ++ a :: b :: after).map (·.minute)).Pairwise (· < ·)) (ha : a.minute ≤ m) (hb : m < b.minute) :
    (profilePressure (before ++ a :: b :: after) m : Int) =
      (2 * (a.pressure * ((b.minute : Int) - m) + b.pressure * (m - (a.minute : Int))) + (b.minute - a.minute))
        / (2 * ((b.minute : Int) - a.minute)) := by
  obtain ⟨hearly, -⟩ := rising_split hrising
  have hsplit : before ++ a :: b :: after = (before ++ [a]) ++ b :: after := by simp
  obtain ⟨-, hlate⟩ := rising_split (hsplit ▸ hrising)
  obtain ⟨first, rest, hprofile⟩ : ∃ first rest, before ++ a :: b :: after = first :: rest :=
    List.exists_cons_of_ne_nil (by simp)
  have hrest : rest ≠ [] := by
    rintro rfl
    have hlength := congrArg List.length hprofile
    simp only [List.length_append, List.length_cons, List.length_nil] at hlength
    omega
  have hbefore := knotBefore_of_split hprofile.symm ha (fun c hc => by
    rcases List.mem_cons.mp hc with rfl | hc
    · exact hb
    · exact hb.trans (hlate c hc))
  have hafter := knotAfter_of_split (hprofile.symm.trans hsplit) (fun c hc => by
    rcases List.mem_append.mp hc with hc | hc
    · exact (hearly c hc).le.trans ha
    · rwa [List.mem_singleton.mp hc]) hb
  rw [hprofile, profilePressure_eq_lineAt hrest, hbefore, hafter]
  exact lineAt_eq (by push_cast; rfl) (by push_cast; rfl) (by dsimp only; omega) (by dsimp only; omega)

section Wrapped

variable {first last : Breakpoint} {middle : List Breakpoint}

theorem rising_from_first (hrising : ((first :: middle ++ [last]).map (·.minute)).Pairwise (· < ·)) :
    ∀ b ∈ first :: (middle ++ [last]), first.minute ≤ b.minute := by
  obtain ⟨-, hlate⟩ := rising_split (early := []) (b := first) (late := middle ++ [last]) hrising
  intro b hb
  rcases List.mem_cons.mp hb with rfl | hb
  · exact le_rfl
  · exact (hlate b hb).le

theorem rising_to_last (hrising : ((first :: middle ++ [last]).map (·.minute)).Pairwise (· < ·)) :
    ∀ b ∈ first :: (middle ++ [last]), b.minute ≤ last.minute := by
  obtain ⟨hearly, -⟩ := rising_split (late := []) hrising
  intro b hb
  rcases List.mem_append.mp (show b ∈ (first :: middle) ++ [last] from hb) with hb | hb
  · exact (hearly b hb).le
  · rw [List.mem_singleton.mp hb]

/-- R87: from the last breakpoint of the day on, toward tomorrow's first. -/
theorem profilePressure_from_last (hrising : ((first :: middle ++ [last]).map (·.minute)).Pairwise (· < ·))
    (hm : m ≤ 1439) (hlast : last.minute ≤ m) :
    (profilePressure (first :: middle ++ [last]) m : Int) =
      (2 * (last.pressure * ((first.minute + 1440 : Int) - m) + first.pressure * (m - (last.minute : Int)))
          + (first.minute + 1440 - last.minute)) / (2 * ((first.minute + 1440 : Int) - last.minute)) := by
  have hbefore := knotBefore_of_split (first := first) (rest := middle ++ [last]) (early := first :: middle) (late := [])
    rfl hlast nofun
  have hafter := knotAfter_of_early (fun b hb => (rising_to_last hrising b hb).trans hlast)
  rw [List.cons_append, profilePressure_eq_lineAt (by simp), hbefore, hafter]
  exact lineAt_eq (by push_cast; rfl) (by push_cast; ring) (by dsimp only; omega) (by dsimp only; omega)

/-- R87: before the first breakpoint of the day, from yesterday's last. -/
theorem profilePressure_before_first (hrising : ((first :: middle ++ [last]).map (·.minute)).Pairwise (· < ·))
    (hlast : last.minute ≤ 1439) (hfirst : m < first.minute) :
    (profilePressure (first :: middle ++ [last]) m : Int) =
      (2 * (last.pressure * ((first.minute : Int) - m) + first.pressure * (m - (last.minute - 1440 : Int)))
          + (first.minute - (last.minute - 1440))) / (2 * ((first.minute : Int) - (last.minute - 1440))) := by
  have hbefore := knotBefore_of_late (fun b hb => hfirst.trans_le (rising_from_first hrising b hb))
  have hafter := knotAfter_of_split (first := first) (rest := middle ++ [last]) (early := []) rfl nofun hfirst
  have hwrapped : (middle ++ [last]).getLastD first = last := by simp
  rw [hwrapped] at hbefore
  rw [List.cons_append, profilePressure_eq_lineAt (by simp), hbefore, hafter]
  exact lineAt_eq (by ring) (by push_cast; rfl) (by dsimp only; omega) (by dsimp only; omega)

end Wrapped

/-- R87: at a breakpoint's own minute. -/
theorem profilePressure_at_breakpoint {b : Breakpoint} (hrising : (profile.map (·.minute)).Pairwise (· < ·))
    (hfit : ∀ b ∈ profile, b.minute ≤ 1439 ∧ b.pressure ≤ 10000) (hm : m ≤ 1439) (hb : b ∈ profile)
    (hat : b.minute = m) : profilePressure profile m = b.pressure := by
  obtain ⟨first, rest, rfl⟩ := List.exists_cons_of_ne_nil (List.ne_nil_of_mem hb)
  by_cases hrest : rest = []
  · subst hrest
    rw [List.mem_singleton.mp hb]
    rfl
  · obtain ⟨early, late, hsplit⟩ := List.append_of_mem hb
    obtain ⟨-, hlate⟩ := rising_split (hsplit ▸ hrising)
    have hbefore := knotBefore_of_split hsplit hat.le (fun c hc => hat ▸ hlate c hc)
    obtain ⟨hafter, -⟩ := knotAfter_bounds hm hfit
    rw [profilePressure_eq_lineAt hrest, hbefore, hat]
    exact lineAt_start hafter b.pressure

/-- R87: a bound on the breakpoints' pressures bounds the profile pressure. -/
theorem profilePressure_le (hfit : ∀ b ∈ profile, b.minute ≤ 1439 ∧ b.pressure ≤ 10000) (hm : m ≤ 1439) :
    profilePressure profile m ≤ 10000 := by
  cases profile with
  | nil => exact Nat.zero_le _
  | cons first rest =>
    by_cases hrest : rest = []
    · subst hrest
      exact (hfit first List.mem_cons_self).2
    · obtain ⟨hle, hbefore⟩ := knotBefore_bounds (m := m) hfit
      obtain ⟨hlt, hafter⟩ := knotAfter_bounds hm hfit
      rw [profilePressure_eq_lineAt hrest]
      exact lineAt_le hbefore hafter hle hlt

end Pressure

/-- Settles O28: by where the minute lies among the breakpoints. -/
theorem profilePressureFollowsBreakpoints : Obligations.ProfilePressureFollowsBreakpoints := by
  intro r s htime profile m hrising hfit line
  have hm : m ≤ 1439 := by
    have : m = s.clock.timeOfDay / 60 := rfl
    omega
  clear_value profile m
  refine ⟨?_, ?_, ?_, fun b hb hat => profilePressure_at_breakpoint hrising hfit hm hb hat,
    profilePressure_le hfit hm⟩
  · rintro b rfl
    rfl
  · rintro before a b after rfl ha hb
    exact profilePressure_between hrising ha hb
  · rintro first middle last rfl
    exact ⟨profilePressure_from_last hrising hm,
      profilePressure_before_first hrising (hfit last (by simp)).1⟩

end Sys2Proof.Profiles
end

section
/-! SUPPORT. The statements' words about hours, days and the clock, each tied to the model's operation of the same
meaning. -/

namespace Sys2Proof.Laws

open Sys2Proof Sys2Proof.Machine Sys2Proof.Claims

/-! ### Loaded meters by number -/

theorem toList_eq_map_tableGet {α : Type} {n : Nat} (v : Vector (Option α) n) :
    v.toList = (List.range n).map (tableGet v) := by
  refine List.ext_getElem (by simp) fun i hi _ => ?_
  have : i < n := by simpa using hi
  simp [tableGet, this]

/-- The loaded meters in the order of their numbers. -/
theorem loadedMeters_eq (s : State) :
    s.meters.toList.filterMap id = (List.range 8).filterMap (fun i => s.meter (i + 1)) := by
  rw [toList_eq_map_tableGet, List.filterMap_map]
  rfl

theorem any_loadedMeter (s : State) (p : Meter → Bool) :
    (s.meters.toList.filterMap id).any p = (List.range 8).any (fun i => (s.meter (i + 1)).any p) := by
  rw [loadedMeters_eq, List.any_filterMap]
  rfl

/-! ### Words: flags -/

/-- Flags joined one set after the other: each flag is set when one of the sets has it. -/
theorem foldl_union (l : List HourFlags) (a : HourFlags) :
    l.foldl HourFlags.union a =
      ⟨a.countGap || l.any (·.countGap), a.cvDeclared || l.any (·.cvDeclared), a.clockSet || l.any (·.clockSet),
        a.stockPartial || l.any (·.stockPartial), a.correctionDegraded || l.any (·.correctionDegraded)⟩ := by
  induction l generalizing a with
  | nil => simp
  | cons x l ih => simp [ih, HourFlags.union, Bool.or_assoc]

theorem flagAll_eq_inFlags (flags : HourFlags) : Hour.flagAll flags = inFlags (fun q => q.union flags) := rfl

/-- The flags an opening or a close sets beside those held. -/
theorem union_clockSet_stockPartial (q : HourFlags) (clockSet stockPartial : Bool) :
    q.union { HourFlags.clear with clockSet := clockSet, stockPartial := stockPartial } =
      { q with clockSet := q.clockSet || clockSet, stockPartial := q.stockPartial || stockPartial } := by
  simp [HourFlags.union, HourFlags.clear]

theorem flagClockSet_eq_clockSetFlagged (s : State) : flagClockSet s = clockSetFlagged s := by
  have hflags : ∀ q : HourFlags, q.union { HourFlags.clear with clockSet := true } = { q with clockSet := true } := by
    intro q
    simp [HourFlags.union, HourFlags.clear]
  simp only [flagClockSet, flagAll_eq_inFlags, hflags]
  rfl

/-! ### Words: an hour opened (R113) -/

theorem widen_eq_widened (v : Nat) (q : DistrictHour) : q.widen v = widened v q := by
  obtain ⟨_, _, _, _, least, greatest, _⟩ := q
  cases least <;> cases greatest <;> rfl

theorem openDistrict_eq_districtOpened (s : State) (d : Nat) (q : DistrictHour) :
    openDistrict s d q = districtOpened s d q := by
  unfold openDistrict districtOpened outletRate
  rw [loadedMeters_eq]
  cases (s.district d).bind (·.active) with
  | none => rfl
  | some v => exact widen_eq_widened v _

theorem openHour_eq_hourOpened (s : State) (r : Hour) : openHour s r = hourOpened s r := by
  simp only [openHour, flagAll_eq_inFlags, union_clockSet_stockPartial, openDistrict_eq_districtOpened]
  rfl

theorem openPresentHour_eq_presentHourOpened (s : State) : openPresentHour s = presentHourOpened s := by
  simp only [openPresentHour, modCurrent, presentHourOpened, vectorModify_eq_ofFn, Nat.add_right_cancel_iff,
    openHour_eq_hourOpened, hourNumber, hourOf, ite_not, ite_and]

theorem openBook_eq_bookOpened (opening : Nat) (s : State) : openBook opening s = bookOpened opening s := rfl

/-! ### Words: an hour closed (R115) -/

theorem districtReports_eq (d : Nat) (s : State) :
    districtReports d s = ((s.district d).isSome ||
      (List.range 8).any (fun i => (s.meter (i + 1)).any (fun m => m.target == .outlet d))) := by
  rw [districtReports, any_loadedMeter]

theorem oweHourClose_eq (b : DayBook) (n : Nat) (s : State) :
    oweHourClose b n s =
      (sectionsReported s).foldl (fun t part => oweReference (.hour b.serial b.gasDay n part) t) s := by
  simp only [oweHourClose, districtReports_eq, sectionsReported, List.foldl_append, List.foldl_cons, List.foldl_nil]

/-- R115: what a close makes of the records of an hour. -/
theorem closedHour_eq (clockSet : Bool) (s : State) (r : Hour) :
    { Hour.flagAll { HourFlags.clear with clockSet := clockSet, stockPartial := stockIsPartial s } r with
        state := .closed, endStock := some s.yardStock } =
      { r with
        state := .closed, endStock := some s.yardStock
        districts := r.districts.map (fun q => { q with flags := closingFlags clockSet s q.flags })
        makes := r.makes.map (fun q => { q with flags := closingFlags clockSet s q.flags }) } := by
  simp only [Hour.flagAll, union_clockSet_stockPartial]
  rfl

theorem closeOpenHour_eq_hourClosed {s : State} {b : DayBook} {n : Nat} (clockSet : Bool)
    (hb : s.currentBook = some b) (hn : openHourNumber b = some n) :
    closeOpenHour clockSet s = hourClosed clockSet b n s := by
  simp only [closeOpenHour, hb, hn, oweHourClose_eq, modOpenHour, closedHour_eq, Option.map_some]
  rfl

/-- R115: a close changes the current book, the clock-set mark and the reports owed. -/
theorem hourClosed_recordsOnly (clockSet : Bool) (b : DayBook) (n : Nat) (s : State) :
    RecordsOnly { s with currentBook := some (hoursClosed clockSet s b), clock := { s.clock with setMark := false } }
      (hourClosed clockSet b n s) :=
  RecordsOnly.foldl (fun _ _ => .oweReference _ _) _ _

/-- R115: the book and the clock a close leaves. -/
theorem hourClosed_book (clockSet : Bool) (b : DayBook) (n : Nat) (s : State) :
    (hourClosed clockSet b n s).currentBook = some (hoursClosed clockSet s b) ∧
      (hourClosed clockSet b n s).clock = { s.clock with setMark := false } := by
  have hrecords := hourClosed_recordsOnly clockSet b n s
  exact ⟨(congrArg State.currentBook hrecords :), (congrArg State.clock hrecords :)⟩

/-- With no hour open, or no book, a close leaves the state. -/
theorem closeOpenHour_eq_elim (clockSet : Bool) (s : State) :
    closeOpenHour clockSet s =
      s.currentBook.elim s (fun b => (openHourNumber b).elim s (fun n => hourClosed clockSet b n s)) := by
  cases hb : s.currentBook with
  | none => simp [closeOpenHour, hb]
  | some b =>
    cases hn : openHourNumber b with
    | none => simp [closeOpenHour, hb, hn]
    | some n => simp [closeOpenHour_eq_hourClosed clockSet hb hn, hn]

/-! ### Words: a gas day closed (R116) -/

/-- A sum over the members of a vector, by member number. -/
theorem sum_toList_map {α : Type} {n : Nat} (v : Vector α n) (f : α → Nat) :
    (v.toList.map f).sum = ∑ i : Fin n, f v[i] := by
  rw [← List.sum_ofFn]
  congr 1
  refine List.ext_getElem (by simp) fun i _ _ => by simp

/-- Summed over the records for each member and then over the members, or for each record first, the total is one. -/
theorem sum_ofFn_sum {α β : Type} {n : Nat} (l : List α) (v : α → Vector β n) (f : β → Nat) :
    (Vector.ofFn (fun i : Fin n => (l.map (fun r => f (v r)[i])).sum)).toList.sum =
      (l.map (fun r => ((v r).toList.map f).sum)).sum := by
  rw [Vector.toList_ofFn, List.sum_ofFn]
  induction l with
  | nil => simp
  | cons r l ih => simp only [List.map_cons, List.sum_cons, Finset.sum_add_distrib, ih, sum_toList_map]

theorem dayTotals_eq_totalsOf (b : DayBook) : dayTotals b = totalsOf b := by
  have hsendOut := sum_ofFn_sum b.hours.toList (·.districts) (·.volume)
  have hmake := sum_ofFn_sum b.hours.toList (·.makes) (·.volume)
  simp only [dayTotals, totalsOf, DayTotals.mk.injEq]
  refine ⟨rfl, rfl, rfl, rfl, hsendOut, hmake, ?_⟩
  simp [foldl_union, Hour.allFlags, HourFlags.clear, Function.comp_def]

theorem dayClose_eq_dayClosed {s : State} {b : DayBook} (hb : s.currentBook = some b) : dayClose s = dayClosed b s := by
  simp only [dayClose, hb, dayClosed, closeBook, dayTotals_eq_totalsOf, openBook_eq_bookOpened]
  cases s.previousBook with
  | none => rfl
  | some p =>
    cases hp : p.collected with
    | false => simp only [hp, Option.any_some, Bool.not_false, Bool.false_eq_true, if_true, if_false, raised, alarmKey]
    | true => simp only [hp, Option.any_some, Bool.not_true, Bool.false_eq_true, if_true, if_false]

theorem dayClose_eq_elim (s : State) : dayClose s = s.currentBook.elim s (fun b => dayClosed b s) := by
  cases hb : s.currentBook with
  | none => simp [dayClose, hb]
  | some b => exact dayClose_eq_dayClosed hb

/-- R116: the two books a day close leaves, and the clock. -/
theorem dayClosed_books (b : DayBook) (s : State) :
    (dayClosed b s).previousBook = some { b with
        closing := some s.yardStock, totals := some (totalsOf b)
        uag := some ((b.opening : Int) + (totalsOf b).make - (totalsOf b).sendOut - s.yardStock) } ∧
      (dayClosed b s).currentBook = (bookOpened s.yardStock s).currentBook ∧ (dayClosed b s).clock = s.clock := by
  have hraised : RecordsOnly s
      (if s.previousBook.any (fun p => !p.collected) then raised .dayOverwritten 0 s else s) := by
    split
    · exact .raiseAlarm _ s
    · exact .refl s
  unfold dayClosed
  dsimp only
  generalize (if s.previousBook.any (fun p => !p.collected) then raised .dayOverwritten 0 s else s) = t at hraised
  have howed := fun v => RecordsOnly.oweReference (.day b.serial b.gasDay) v
  refine ⟨(congrArg State.previousBook (howed _) :), (congrArg State.currentBook (howed _)).trans ?_,
    (congrArg State.clock (howed _)).trans ?_⟩
  all_goals
    rw [hraised]
    rfl

/-! ### Words: the clock set (R102) -/

theorem addUnclocked_eq_unclockedAdded : addUnclocked = unclockedAdded := by
  funext s m
  unfold addUnclocked unclockedAdded
  cases s.meter m with
  | none => rfl
  | some r =>
    simp only [hourAdd_eq_inTarget]
    rfl

end Sys2Proof.Laws
end

section
/-! SUPPORT. What the primitive changes leave of the clock and the day books. -/

namespace Sys2Proof.Books

open Sys2Proof Sys2Proof.Machine Sys2Proof.Claims Sys2Proof.Laws

/-! ### Open hours of a book -/

/-- How many hours of a book are open. -/
def openHours (b : DayBook) : Nat := b.hours.toList.countP (fun r => r.state == .opened)

theorem openHours_eq_zero_iff {b : DayBook} : openHours b = 0 ↔ ∀ r ∈ b.hours.toList, r.state ≠ .opened := by
  simp [openHours]

/-- Records changed in other fields than their state leave as many hours open. -/
theorem openHours_map {b c : DayBook} {f : Hour → Hour} (hf : ∀ r, (f r).state = r.state)
    (hc : c.hours = b.hours.map f) : openHours c = openHours b := by
  simp [openHours, hc, Function.comp_def, hf]

/-- R114: a hand-over to the open hour leaves as many hours open. -/
theorem openHours_modOpenHour {f : Hour → Hour} (hf : ∀ r, (f r).state = r.state) (b : DayBook) :
    openHours { b with hours := b.hours.map (fun r => if r.state = .opened then f r else r) } = openHours b := by
  refine openHours_map (fun r => ?_) rfl
  split
  · exact hf r
  · rfl

theorem openHours_of_openHourNumber_none {b : DayBook} (h : openHourNumber b = none) : openHours b = 0 := by
  rw [openHours_eq_zero_iff]
  intro r hr
  obtain ⟨i, hi, rfl⟩ := Vector.mem_iff_getElem.mp (Vector.mem_toList_iff.mp hr)
  have hnone := List.find?_eq_none.mp h i (List.mem_range.mpr hi)
  simpa [hi] using hnone

theorem openHours_hoursClosed (clockSet : Bool) (s : State) (b : DayBook) : openHours (hoursClosed clockSet s b) = 0 := by
  rw [openHours_eq_zero_iff]
  intro r hr
  simp only [hoursClosed, Vector.toList_map, List.mem_map] at hr
  obtain ⟨q, -, rfl⟩ := hr
  split
  · simp
  · assumption

theorem openHours_bookOpened {b : DayBook} {opening : Nat} {s : State}
    (h : (bookOpened opening s).currentBook = some b) : openHours b = 0 := by
  cases h
  simp [openHours]

/-- R113: the hour opened in a book that has none open is its only one. -/
theorem openHours_vectorModify {b c : DayBook} {n : Nat} {f : Hour → Hour} (hn : n < 24) (hb : openHours b = 0)
    (hf : ∀ r, r.state ≠ .opened → (f r).state = .opened) (hc : c.hours = vectorModify b.hours n f) :
    openHours c = 1 := by
  have hclosed := openHours_eq_zero_iff.mp hb b.hours[n] (Vector.mem_toList_iff.mpr (Vector.getElem_mem hn))
  have hopened := hf _ hclosed
  have hset : c.hours.toList = b.hours.toList.set n (f b.hours[n]) := by
    simp only [hc, vectorModify, Vector.getElem?_eq_getElem hn, Vector.toList_setIfInBounds]
  have hnone : b.hours.toList.countP (fun r => r.state == .opened) = 0 := hb
  rw [openHours, hset, List.countP_set (by simpa using hn), hnone]
  simp [hopened]

/-! ### Steps of a close and an opening (R113, R115, R116) -/

/-- The books once the open hour is closed, before the present one is opened. -/
structure HoursClosed (s : State) : Prop where
  valid : s.clock.valid = true
  noneOpen : ∃ b, s.currentBook = some b ∧ openHours b = 0
  previousClosed : ∀ b, s.previousBook = some b → openHours b = 0
  stocksMeet : ∀ b p, s.currentBook = some b → s.previousBook = some p → p.closing = some b.opening

/-- The clock's validity and the books stand as before. -/
structure BooksKept (s t : State) : Prop where
  valid : t.clock.valid = s.clock.valid
  current : t.currentBook = s.currentBook
  previous : t.previousBook = s.previousBook

theorem kept_of_recordsOnly {s t : State} (h : RecordsOnly s t) : BooksKept s t :=
  ⟨(congrArg (·.clock.valid) h :), (congrArg State.currentBook h :), (congrArg State.previousBook h :)⟩

section Steps

variable {s t : State}

theorem consistent_of_kept (h : HoursConsistent s) (k : BooksKept s t) : HoursConsistent t := by
  obtain ⟨hvalid, hcurrent, hprevious⟩ := k
  exact ⟨by simpa only [hvalid, hcurrent] using h.oneOpen, by simpa only [hvalid, hcurrent, hprevious] using h.noBook,
    by simpa only [hprevious] using h.previousClosed, by simpa only [hcurrent, hprevious] using h.stocksMeet⟩

theorem closed_of_kept (h : HoursClosed s) (k : BooksKept s t) : HoursClosed t := by
  obtain ⟨hvalid, hcurrent, hprevious⟩ := k
  exact ⟨hvalid.trans h.valid, by simpa only [hcurrent] using h.noneOpen,
    by simpa only [hprevious] using h.previousClosed, by simpa only [hcurrent, hprevious] using h.stocksMeet⟩

/-- R100: an INVALID clock without a book. -/
theorem consistent_of_noBook (hinvalid : s.clock.valid = false) (hcurrent : s.currentBook = none)
    (hprevious : s.previousBook = none) : HoursConsistent s where
  oneOpen := fun hvalid => absurd (hinvalid.symm.trans hvalid) nofun
  noBook := fun _ => ⟨hcurrent, hprevious⟩
  previousClosed := fun _ hp => absurd (hprevious.symm.trans hp) nofun
  stocksMeet := fun _ _ hb => absurd (hcurrent.symm.trans hb) nofun

theorem consistent_modOpenHour {f : Hour → Hour} (hf : ∀ r, (f r).state = r.state) (h : HoursConsistent s) :
    HoursConsistent (modOpenHour f s) where
  oneOpen := fun hvalid => by
    obtain ⟨b, hb, hone⟩ := h.oneOpen hvalid
    exact ⟨_, by rw [modOpenHour, hb]; rfl, (openHours_modOpenHour hf b).trans hone⟩
  noBook := fun hvalid => by
    obtain ⟨hcurrent, hprevious⟩ := h.noBook hvalid
    exact ⟨by rw [modOpenHour, hcurrent]; rfl, hprevious⟩
  previousClosed := h.previousClosed
  stocksMeet := fun c p hc hp => by
    obtain ⟨b, hb, rfl⟩ := Option.map_eq_some_iff.mp hc
    exact h.stocksMeet b p hb hp

/-- R115: a close leaves no hour open. -/
theorem closed_closeOpenHour (clockSet : Bool) (hvalid : s.clock.valid = true) (h : HoursConsistent s) :
    HoursClosed (closeOpenHour clockSet s) := by
  obtain ⟨b, hb, -⟩ := h.oneOpen hvalid
  have hprevious : ∀ p, s.previousBook = some p → openHours p = 0 := fun p hp =>
    openHours_eq_zero_iff.mpr (h.previousClosed p hp)
  cases hn : openHourNumber b with
  | none =>
    rw [closeOpenHour, hb]
    simp only [hn]
    exact ⟨hvalid, ⟨b, hb, openHours_of_openHourNumber_none hn⟩, hprevious, h.stocksMeet⟩
  | some n =>
    rw [closeOpenHour_eq_hourClosed clockSet hb hn]
    refine closed_of_kept ?_ (kept_of_recordsOnly (hourClosed_recordsOnly clockSet b n s))
    refine ⟨hvalid, ⟨_, rfl, openHours_hoursClosed clockSet s b⟩, hprevious, fun c p hc hp => ?_⟩
    cases hc
    exact h.stocksMeet b p hb hp

/-- R102, R116: a book opened after a closed one, at its closing stock, or after none. -/
theorem closed_bookOpened {opening : Nat} (hvalid : s.clock.valid = true)
    (hprevious : ∀ p, s.previousBook = some p → openHours p = 0 ∧ p.closing = some opening) :
    HoursClosed (bookOpened opening s) where
  valid := hvalid
  noneOpen := ⟨_, rfl, openHours_bookOpened rfl⟩
  previousClosed := fun p hp => (hprevious p hp).1
  stocksMeet := fun b p hb hp => by
    cases hb
    exact (hprevious p hp).2

/-- R116: a day close leaves no hour open, and meets the stocks. -/
theorem closed_dayClose (h : HoursClosed s) : HoursClosed (dayClose s) := by
  obtain ⟨b, hb, hnone⟩ := h.noneOpen
  obtain ⟨hprevious, hcurrent, hclock⟩ := dayClosed_books b s
  rw [dayClose_eq_dayClosed hb]
  refine ⟨by rw [hclock, h.valid], ⟨_, hcurrent, openHours_bookOpened rfl⟩, fun p hp => ?_, fun c p hc hp => ?_⟩
  · cases hp.symm.trans hprevious
    exact hnone
  · cases hp.symm.trans hprevious
    cases hc.symm.trans hcurrent
    rfl

/-- R113: with no other hour open, the present hour becomes the one that is. -/
theorem consistent_openPresentHour (h : HoursClosed s) : HoursConsistent (openPresentHour s) := by
  obtain ⟨b, hb, hnone⟩ := h.noneOpen
  have hopened : ∀ r : Hour, r.state ≠ .opened →
      (if r.state = .opened then r else openHour s r).state = .opened := by
    intro r hr
    rw [if_neg hr]
    rfl
  refine ⟨fun _ => ⟨_, by rw [openPresentHour, modCurrent, hb]; rfl, ?_⟩, ?_, ?_, ?_⟩
  · exact openHours_vectorModify (Nat.mod_lt _ (by decide)) hnone hopened rfl
  · intro hinvalid
    exact absurd (h.valid.symm.trans hinvalid) nofun
  · exact fun p hp => openHours_eq_zero_iff.mp (h.previousClosed p hp)
  · intro c p hc hp
    obtain ⟨b, hb, rfl⟩ := Option.map_eq_some_iff.mp hc
    exact h.stocksMeet b p hb hp

end Steps

/-! ### The clock and the whole hours (R101 to R104, R115) -/

section Clock

variable {s : State}

/-- R115: a whole hour either is open already, or the open hour is closed for the present one. -/
theorem consistent_takeWholeHour (hour : Nat) (h : HoursConsistent s) : HoursConsistent (takeWholeHour hour s) := by
  unfold takeWholeHour
  split
  · exact h
  · rename_i b hb
    have hvalid : s.clock.valid = true := by
      by_contra hinvalid
      have hnone := (h.noBook (Bool.eq_false_iff.mpr hinvalid)).1
      exact absurd (hb.symm.trans hnone) nofun
    have hclosed := closed_closeOpenHour s.clock.setMark hvalid h
    dsimp only
    split
    · exact h
    · refine consistent_openPresentHour ?_
      split
      · exact closed_dayClose hclosed
      · exact hclosed

theorem consistent_takeHourDue (h : HoursConsistent s) : HoursConsistent (takeHourDue s) := by
  unfold takeHourDue
  split
  · exact h
  · exact consistent_takeWholeHour _ (consistent_of_kept h ⟨rfl, rfl, rfl⟩)

/-- R102: the first book of a clock that becomes VALID follows none. -/
theorem consistent_firstClock (d n : Nat) (hinvalid : s.clock.valid = false) (h : HoursConsistent s) :
    HoursConsistent (let v := { s with clock := { s.clock with valid := true, dayCount := d, timeOfDay := n } }
      openPresentHour (openBook v.yardStock v)) := by
  dsimp only
  rw [openBook_eq_bookOpened]
  refine consistent_openPresentHour (closed_bookOpened rfl fun p hp => ?_)
  exact absurd ((h.noBook hinvalid).2.symm.trans hp) nofun

/-- R104: a forced step closes the open hour, and in another gas day the day, and opens the hour of the new time. -/
theorem consistent_setForced (d n : Nat) (hvalid : s.clock.valid = true) (h : HoursConsistent s) :
    HoursConsistent (setForced d n s) := by
  have hclosed := closed_closeOpenHour true hvalid h
  unfold setForced
  refine consistent_modOpenHour (fun _ => rfl) (consistent_openPresentHour ?_)
  generalize closeOpenHour true s = v at hclosed ⊢
  have hset : HoursClosed
      { v with clock := { v.clock with dayCount := d, timeOfDay := n, setMark := false, hoursDue := [] } } :=
    closed_of_kept hclosed ⟨rfl, rfl, rfl⟩
  dsimp only
  split
  · exact hset
  · split
    · exact hset
    · exact closed_dayClose hset

/-- R117: the collected flag is no part of what the books must meet. -/
theorem consistent_collect (h : HoursConsistent s) :
    HoursConsistent { s with previousBook := s.previousBook.map (fun b => { b with collected := true }) } where
  oneOpen := h.oneOpen
  noBook := fun hinvalid => by
    obtain ⟨hcurrent, hprevious⟩ := h.noBook hinvalid
    exact ⟨hcurrent, by rw [hprevious]; rfl⟩
  previousClosed := fun c hc => by
    obtain ⟨p, hp, rfl⟩ := Option.map_eq_some_iff.mp hc
    exact h.previousClosed p hp
  stocksMeet := fun b c hb hc => by
    obtain ⟨p, hp, rfl⟩ := Option.map_eq_some_iff.mp hc
    exact h.stocksMeet b p hb hp

end Clock

/-! ### Runs of primitive changes -/

section Runs

variable {s t : State}

theorem kept_writeOutletSet (h : Nat) (set : DistrictSet) (s : State) : BooksKept s (writeOutletSet h set s) := by
  cases h <;> exact ⟨rfl, rfl, rfl⟩

theorem kept_oweAlarm (key : AlarmKey) (s : State) : BooksKept s (oweAlarm key s) := by
  unfold oweAlarm
  split_ifs <;> exact ⟨rfl, rfl, rfl⟩

theorem kept_retireHead (e : Entry) (rest : List Entry) (s : State) : BooksKept s (retireHead e rest s) := by
  unfold retireHead
  dsimp only
  split <;> exact ⟨rfl, rfl, rfl⟩

theorem kept_hearStranger (a : Nat) (b : Branch) (s : State) : BooksKept s (hearStranger a b s) := by
  unfold hearStranger
  split
  · exact ⟨rfl, rfl, rfl⟩
  · split <;> exact ⟨rfl, rfl, rfl⟩

theorem kept_storeStation (x : StationFields) (s : State) : BooksKept s (storeStation x s) := by
  unfold storeStation
  split <;> exact ⟨rfl, rfl, rfl⟩

/-- Among the yard's changes only the hand-overs to the open hour touch a book, and they leave its state. -/
theorem consistent_yard (k : Yard s t) (h : HoursConsistent s) : HoursConsistent t := by
  induction k with
  | trans _ _ ih ih' => exact ih' (ih h)
  | hour s f hf => exact consistent_modOpenHour hf h
  | outlet s => exact consistent_of_kept h (kept_writeOutletSet _ _ s)
  | full s => exact consistent_of_kept h (kept_of_recordsOnly (.oweFull _ s))
  | reference s => exact consistent_of_kept h (kept_of_recordsOnly (.oweReference _ s))
  | alarmEntry s => exact consistent_of_kept h (kept_oweAlarm _ s)
  | _ => exact consistent_of_kept h ⟨rfl, rfl, rfl⟩

theorem consistent_part (k : Part s t) (h : HoursConsistent s) : HoursConsistent t := by
  induction k with
  | trans _ _ ih ih' => exact ih' (ih h)
  | yard k => exact consistent_yard k h
  | quiet k => exact consistent_of_kept h ⟨congrArg Clock.valid k.clock, k.currentBook, k.previousBook⟩
  | retire s => exact consistent_of_kept h (kept_retireHead _ _ s)
  | stranger s => exact consistent_of_kept h (kept_hearStranger _ _ s)
  | newStation s => exact consistent_of_kept h (kept_storeStation _ s)
  | clock s c hvalid => exact consistent_of_kept h ⟨hvalid, rfl, rfl⟩
  | hour s => exact consistent_takeHourDue h
  | firstClock s d n hinvalid => exact consistent_firstClock d n hinvalid h
  | forcedClock s d n hvalid => exact consistent_setForced d n hvalid h
  | collect s => exact consistent_collect h
  | _ => exact consistent_of_kept h ⟨rfl, rfl, rfl⟩

/-! ### Restarts (R174) -/

/-- R100, R113: a WARM restart keeps the clock and the books; any other leaves neither. -/
theorem consistent_beginRestart (cause : RestartCause) (h : HoursConsistent s) :
    HoursConsistent (beginRestart cause s) := by
  have afresh : ∀ c, HoursConsistent (beginAfresh c s) := fun c => consistent_of_noBook rfl rfl rfl
  cases cause with
  | power => exact afresh .power
  | cold => exact afresh .cold
  | warm => exact consistent_of_kept h ⟨rfl, rfl, rfl⟩

theorem kept_startLocal (s : State) : BooksKept s (startLocal s) := by
  unfold startLocal
  split <;> exact ⟨rfl, rfl, rfl⟩

theorem consistent_completeRestart (h : HoursConsistent s) : HoursConsistent (completeRestart s) := by
  unfold completeRestart
  split
  · refine consistent_yard (Yard.foldl (fun k => Directory.resumeClosure_yard k) holderNumbers (.refl _)) ?_
    have hstarted : HoursConsistent (startWaiting (startPorts s)) := consistent_of_kept h ⟨rfl, rfl, rfl⟩
    exact consistent_of_kept (consistent_of_kept hstarted (kept_startLocal _)) ⟨rfl, rfl, rfl⟩
  · exact h

theorem consistent_exec {c : Instr} (k : exec c s = .next t) (h : HoursConsistent s) : HoursConsistent t := by
  by_cases hc : c = .restartComplete
  · subst hc
    cases k
    split
    · exact consistent_completeRestart h
    · exact h
  · obtain hpart | ⟨u, cause, hpart, rfl⟩ := PartOrRestart.ofExec k hc
    · exact consistent_part hpart h
    · exact consistent_beginRestart cause (consistent_part hpart h)

end Runs

/-- Settles O59: the command taken is a run of the primitive changes, a restart that follows one, or its completion; of
the primitive changes those of the clock close the open hour before they open the present one. -/
theorem hoursStayConsistent : Obligations.HoursStayConsistent := by
  intro s t k h
  unfold step at k
  split at k
  · cases k
    exact h
  · exact consistent_exec k (consistent_of_kept h ⟨rfl, rfl, rfl⟩)

end Sys2Proof.Books
end

section
/-! SUPPORT. The statements about the clock, the whole hours and the requests of the Account Unit. -/

namespace Sys2Proof.Accounts

open Sys2Proof Sys2Proof.Machine Sys2Proof.Claims Sys2Proof.Laws Sys2Proof.Points

/-! ### CLOCK_SECOND (R101) -/

/-- Settles O30: on a VALID clock the command arises, and the clock advances. -/
theorem clockAdvances : Obligations.ClockAdvances := by
  intro s hvalid
  refine (whenArises_acts advanceClock s hvalid).trans ?_
  simp only [advanceClock, hvalid, hourOf]
  rfl

/-! ### WHOLE_HOUR (R113, R115, R116) -/

/-- R115: a whole hour taken, in the statements' words. -/
theorem takeWholeHour_of_book {s : State} {b : DayBook} (hour : Nat) (hb : s.currentBook = some b) :
    takeWholeHour hour s =
      let n := (hour + 24 - b.startHour) % 24
      let w := (openHourNumber b).elim s (fun k => hourClosed s.clock.setMark b k s)
      if openHourNumber b = some n then s
      else presentHourOpened (if n = 0 then w.currentBook.elim w (fun c => dayClosed c w) else w) := by
  simp only [takeWholeHour, hb, closeOpenHour_eq_elim, hourNumber, openPresentHour_eq_presentHourOpened,
    dayClose_eq_elim, Option.elim_some]

/-- Settles O31: by the statements' words for a close, a day close and an opening. -/
theorem wholeHourCloses : Obligations.WholeHourCloses := by
  refine ⟨fun b => rfl, ?_, ?_, ?_⟩
  · intro s hour rest b hr hdue hb
    have harises : (!s.clock.hoursDue.isEmpty) = true := by simp [hdue]
    have hacts : execWholeHour s = .next (takeHourDue s) := arrival_acts hr harises
    refine hacts.trans ?_
    simp only [takeHourDue, hdue]
    rw [takeWholeHour_of_book hour (s := { s with clock := { s.clock with hoursDue := rest } }) hb]
  · intro s clockSet b n hb hn
    rw [closeOpenHour_eq_hourClosed clockSet hb hn]
    exact ⟨rfl, hourClosed_book clockSet b n s⟩
  · intro s b hb
    obtain ⟨hprevious, hcurrent, -⟩ := dayClosed_books b s
    dsimp only
    rw [dayClose_eq_dayClosed hb]
    exact ⟨rfl, _, _, hprevious, hcurrent, rfl, rfl, rfl, rfl, rfl, rfl, rfl, rfl, rfl, rfl, rfl, rfl⟩

/-! ### COLLECT_DAY (R117) -/

theorem carriesDay_iff (day : Nat) (s : State) :
    (!s.previousBook.any (fun b => b.gasDay == day)) = true ↔ ∀ b, s.previousBook = some b → b.gasDay ≠ day := by
  cases s.previousBook <;> simp

/-- Settles O48: the first of the two checks that fails, or the previous book collected. -/
theorem collectDayActs : Obligations.CollectDayActs := by
  intro f r s u h
  have answer : ∀ {result : ResultCode} {v : State}, collectDay f u = ⟨result, [], v⟩ →
      exec .collectDay s = .next (answered r 18 result [] v) := request_of_performed h (by decide) (by decide)
  have hformat : f.length = 2 → (f.length != 2) ≠ true := fun hlength => by simp [hlength]
  have hbook := carriesDay_iff (field f 0 2) u
  refine ⟨fun hlength => answer (judge_fails (firstFailure_here (bne_iff_ne.mpr hlength)) _ _),
    fun hlength hnone => answer (judge_fails ((firstFailure_next (hformat hlength)).trans
      (firstFailure_here (hbook.mpr hnone))) _ _), fun b hlength hb hday => ?_⟩
  have hcollected : collect u =
      clearAlarm ⟨.dayOverwritten, 0, none⟩ { u with previousBook := some { b with collected := true } } := by
    simp only [collect, hb, Option.map_some]
    rfl
  rw [← hcollected]
  exact answer (judge_accepts ((firstFailure_next (hformat hlength)).trans
    (firstFailure_next (mt hbook.mp fun hnone => hnone b hb hday))) _ _)

/-! ### LOAD_METER (R105, R106) -/

theorem meterTargetOf_eq_targetOf (f : List Byte) : meterTargetOf (octetAt f 1) (octetAt f 2) = targetOf f := by
  unfold targetOf
  rcases octetAt f 1 with _ | _ | kind
  · rfl
  · rfl
  · simp [meterTargetOf]

theorem loadMeter_format_iff (f : List Byte) :
    (f.length != 15 || (meterTargetOf (octetAt f 1) (octetAt f 2)).isNone || octetAt f 3 == 255 || octetAt f 0 == 255)
        = true ↔
      ¬ (f.length = 15 ∧ targetOf f ≠ none ∧ octetAt f 3 ≠ 255 ∧ octetAt f 0 ≠ 255) := by
  rw [meterTargetOf_eq_targetOf]
  simp only [Bool.or_eq_true, bne_iff_ne, beq_iff_eq, Option.isNone_iff_eq_none]
  tauto

/-- R105: the range of the number a target carries. -/
theorem targetInRange_iff {f : List Byte} (h : targetOf f ≠ none) :
    (targetOf f).any MeterTarget.inRange = true ↔
      1 ≤ octetAt f 2 ∧ octetAt f 2 ≤ if octetAt f 1 = 0 then 6 else 2 := by
  unfold targetOf at h ⊢
  split_ifs at h ⊢ with h0 h1
  · simp [MeterTarget.inRange, outside, Nat.one_le_iff_ne_zero]
  · simp [MeterTarget.inRange, outside, Nat.one_le_iff_ne_zero]
  · exact absurd rfl h

theorem loadMeter_range_iff {f : List Byte} (h : targetOf f ≠ none) :
    (outside 1 8 (octetAt f 0) || !(meterTargetOf (octetAt f 1) (octetAt f 2)).any MeterTarget.inRange
        || decide (191 < octetAt f 3) || badPoint (octetAt f 4)
        || badPoint (octetAt f 5) || decide (10000 < field f 6 2) || badPoint (octetAt f 8)
        || outside 1 100000 (field f 9 4) || outside 1 10000 (field f 13 2)) = true ↔
      ¬ ((1 ≤ octetAt f 0 ∧ octetAt f 0 ≤ 8) ∧ 1 ≤ octetAt f 2 ∧ octetAt f 2 ≤ (if octetAt f 1 = 0 then 6 else 2) ∧
        octetAt f 3 ≤ 191 ∧ mayBePoint (octetAt f 4) ∧ mayBePoint (octetAt f 5) ∧ field f 6 2 ≤ 10000 ∧
        mayBePoint (octetAt f 8) ∧ (1 ≤ field f 9 4 ∧ field f 9 4 ≤ 100000) ∧
        (1 ≤ field f 13 2 ∧ field f 13 2 ≤ 10000)) := by
  have htarget : (!(targetOf f).any MeterTarget.inRange) = true ↔
      ¬ (1 ≤ octetAt f 2 ∧ octetAt f 2 ≤ if octetAt f 1 = 0 then 6 else 2) := by
    rw [← targetInRange_iff h, Bool.not_eq_true', Bool.not_eq_true]
  simp only [meterTargetOf_eq_targetOf, Bool.or_eq_true, htarget, mayBePoint, outside, badPoint, decide_eq_true_eq]
  omega

/-- R106: another loaded record has the target. -/
theorem loadMeter_taken_iff (f : List Byte) (s : State) :
    targetTaken (octetAt f 0) (meterTargetOf (octetAt f 1) (octetAt f 2)) s = true ↔
      ∃ k q, k ≠ octetAt f 0 ∧ s.meter k = some q ∧ some q.target = targetOf f := by
  simp only [targetTaken, meterTargetOf_eq_targetOf, List.any_eq_true, Bool.and_eq_true, Option.any_eq_true,
    bne_iff_ne, beq_iff_eq]
  constructor
  · rintro ⟨k, -, hne, q, hq, htarget⟩
    exact ⟨k, q, hne, hq, htarget⟩
  · rintro ⟨k, q, hne, hq, htarget⟩
    have := recordGet_some_le hq
    exact ⟨k, by simp; omega, hne, q, hq, htarget⟩

/-- R106: where a record held has no rate, none is kept. -/
theorem keepComputed_of_no_rate {held : Meter} (loaded : Meter) (h : held.rate = 0) :
    keepComputed held loaded = { loaded with
      lastCount := held.lastCount
      lastCountValid := held.lastCountValid && held.countPoint == loaded.countPoint
      rate := 0
      unclockedVolume := held.unclockedVolume, unclockedEnergy := held.unclockedEnergy
      unclockedFlags := held.unclockedFlags } := by
  rw [keepComputed, h, ite_self]

/-- R105, R106: the record stored keeps what a record loaded before has computed; a new one has computed nothing. -/
theorem storeMeter_eq {f : List Byte} {target : MeterTarget} (s : State) (ht : targetOf f = some target) :
    storeMeter f s = s.putMeter (octetAt f 0) (keepComputed ((s.meter (octetAt f 0)).getD
      ⟨target, 0, none, none, 0, none, 0, 0, 0, false, 0, 0, 0, HourFlags.clear⟩) (loadedMeter f target)) := by
  simp only [storeMeter, meterTargetOf_eq_targetOf, ht]
  cases s.meter (octetAt f 0) with
  | none =>
    rw [Option.getD_none, keepComputed_of_no_rate _ rfl]
    rfl
  | some q => rfl

/-- Settles O46: the first of the three checks that fails, or the record stored. -/
theorem loadMeterActs : Obligations.LoadMeterActs := by
  intro f r s u h
  have answer : ∀ {result : ResultCode} {v : State}, loadMeter f u = ⟨result, [], v⟩ →
      exec .loadMeter s = .next (answered r 16 result [] v) := request_of_performed h (by decide) (by decide)
  have hformat := loadMeter_format_iff f
  have htaken := loadMeter_taken_iff f u
  refine ⟨fun hbad => answer (judge_fails (firstFailure_here (hformat.mpr hbad)) _ _), fun hgood hwide => ?_,
    fun hgood hfits ht => ?_, fun target hgood hfits ht htarget => ?_⟩
  all_goals
    have hrange := loadMeter_range_iff hgood.2.1
    have hpassed := fun rest => firstFailure_next (result := .badFormat) (rest := rest)
      (mt hformat.mp (not_not_intro hgood))
  · exact answer (judge_fails ((hpassed _).trans (firstFailure_here (hrange.mpr hwide))) _ _)
  all_goals have hwithin := mt hrange.mp (not_not_intro hfits)
  · exact answer (judge_fails ((hpassed _).trans ((firstFailure_next hwithin).trans
      (firstFailure_here (htaken.mpr ht)))) _ _)
  · have haccepted := answer (judge_accepts ((hpassed _).trans ((firstFailure_next hwithin).trans
      (firstFailure_next (mt htaken.mp ht)))) _ _)
    rwa [storeMeter_eq u htarget] at haccepted

/-! ### SET_CLOCK (R102 to R104) -/

theorem boolOf_isNone_iff (v : Nat) : (boolOf v).isNone = true ↔ 1 < v := by
  rcases v with _ | _ | v <;> simp [boolOf]

theorem setClock_format_iff (f : List Byte) :
    (f.length != 7 || (boolOf (octetAt f 6)).isNone) = true ↔ f.length ≠ 7 ∨ 1 < octetAt f 6 := by
  rw [Bool.or_eq_true, bne_iff_ne, boolOf_isNone_iff]

/-- R102: the first setting, in the statements' words. -/
theorem firstSetting_eq (day time : Nat) (s : State) :
    firstSetting day time s =
      let t := { s with clock := { s.clock with valid := true, dayCount := day, timeOfDay := time } }
      let t := presentHourOpened (bookOpened t.yardStock t)
      clockSetFlagged ([1, 2, 3, 4, 5, 6, 7, 8].foldl unclockedAdded t) := by
  simp only [firstSetting, flagClockSet_eq_clockSetFlagged, openPresentHour_eq_presentHourOpened,
    openBook_eq_bookOpened, addUnclocked_eq_unclockedAdded]

/-- R104: a forced setting, in the statements' words. -/
theorem setForced_eq (day time : Nat) (s : State) :
    setForced day time s =
      let t := s.currentBook.elim s (fun b => (openHourNumber b).elim s (fun k => hourClosed true b k s))
      let t := { t with clock := { t.clock with dayCount := day, timeOfDay := time, setMark := false, hoursDue := [] } }
      let gas := fun b : DayBook => if b.startHour ≤ time / 3600 then day else (day + 65535) % 65536
      let t := t.currentBook.elim t (fun b => if gas b = b.gasDay then t else dayClosed b t)
      clockSetFlagged (presentHourOpened t) := by
  simp only [setForced, flagClockSet_eq_clockSetFlagged, openPresentHour_eq_presentHourOpened, closeOpenHour_eq_elim,
    dayClose_eq_elim]
  generalize s.currentBook.elim s (fun b => (openHourNumber b).elim s (fun k => hourClosed true b k s)) = v
  cases v.currentBook <;> rfl

/-- R103: a step forward, in the statements' words. -/
theorem stepForward_eq (day time step : Nat) (s : State) :
    stepForward day time step s = { s with clock := { s.clock with
      dayCount := day, timeOfDay := time, setMark := true
      hoursDue := if s.clock.timeOfDay / 3600 < (s.clock.timeOfDay + step) / 3600 then s.clock.hoursDue ++ [time / 3600]
        else s.clock.hoursDue } } := by
  unfold stepForward passesHour
  by_cases h : s.clock.timeOfDay / 3600 < (s.clock.timeOfDay + step) / 3600
  · simp only [h, decide_true, if_true]
    rfl
  · simp only [h, decide_false, if_false, List.append_nil, Bool.false_eq_true]

/-- R103: what is answered to a setting without FORCE. -/
theorem setUnforced_answers (answer : ResultCode → State → Prop) (day time : Nat) (s : State) :
    answer (setUnforced day time s).1 (setUnforced day time s).2 ↔
      let c := s.clock
      let round := 65536 * 86400
      let old := c.dayCount * 86400 + c.timeOfDay
      let new := day * 86400 + time
      let ahead := (new + round - old) % round
      let behind := (old + round - new) % round
      if ahead = 0 then answer .accepted s
      else if ahead ≤ 300 then answer .accepted { s with clock := { c with
        dayCount := day, timeOfDay := time, setMark := true
        hoursDue := if c.timeOfDay / 3600 < (c.timeOfDay + ahead) / 3600 then c.hoursDue ++ [time / 3600]
          else c.hoursDue } }
      else if behind ≤ 300 then answer .accepted { s with clock := { c with
        dayCount := day, timeOfDay := time, setMark := true
        hoursDue := if c.timeOfDay % 3600 < behind then c.hoursDue.dropLast else c.hoursDue } }
      else answer .stepTooLarge s := by
  extract_lets c round old new ahead behind
  have hset : setUnforced day time s =
      if ahead = 0 then (.accepted, s)
      else if ahead ≤ 300 then (.accepted, stepForward day time ahead s)
      else if behind ≤ 300 then (.accepted, stepBackward day time behind s)
      else (.stepTooLarge, s) := rfl
  rw [hset, ← stepForward_eq]
  by_cases hstill : ahead = 0
  · rw [if_pos hstill, if_pos hstill]
  rw [if_neg hstill, if_neg hstill]
  by_cases hforward : ahead ≤ 300
  · rw [if_pos hforward, if_pos hforward]
  rw [if_neg hforward, if_neg hforward]
  by_cases hback : behind ≤ 300
  · rw [if_pos hback, if_pos hback]
    rfl
  · rw [if_neg hback, if_neg hback]

/-- R102 to R104: what is answered to a setting, by the clock's validity and FORCE. -/
theorem setClockNow_answers (answer : ResultCode → State → Prop) (day time force : Nat) (s : State) :
    answer (setClockNow day time (force == 1) s).1 (setClockNow day time (force == 1) s).2 ↔
      if s.clock.valid = false then answer .accepted (firstSetting day time s)
      else if force = 1 then answer .accepted (setForced day time s)
      else answer (setUnforced day time s).1 (setUnforced day time s).2 := by
  unfold setClockNow
  cases hvalid : s.clock.valid with
  | false => rfl
  | true =>
    simp only [Bool.not_true, Bool.false_eq_true, Bool.true_eq_false, if_false, beq_iff_eq]
    by_cases hforce : force = 1
    · rw [if_pos hforce, if_pos hforce]
    · rw [if_neg hforce, if_neg hforce]

/-- R102: what is answered to a SET-CLOCK: the first of the two checks that fails, or the setting. -/
theorem setClock_answers (answer : ResultCode → State → Prop) (f : List Byte) (s : State) :
    answer (setClock f s).result (setClock f s).state ↔
      if f.length ≠ 7 ∨ 1 < octetAt f 6 then answer .badFormat s
      else if 86399 < field f 2 4 then answer .outOfRange s
      else answer (setClockNow (field f 0 2) (field f 2 4) (octetAt f 6 == 1) s).1
        (setClockNow (field f 0 2) (field f 2 4) (octetAt f 6 == 1) s).2 := by
  have hformat := setClock_format_iff f
  unfold setClock
  dsimp only
  by_cases hbad : f.length ≠ 7 ∨ 1 < octetAt f 6
  · rw [if_pos hbad, firstFailure_here (hformat.mpr hbad)]
  rw [if_neg hbad, firstFailure_next (mt hformat.mp hbad)]
  by_cases hlate : 86399 < field f 2 4
  · rw [if_pos hlate, firstFailure_here (decide_eq_true hlate)]
  · rw [if_neg hlate, firstFailure_next (by simpa using hlate), firstFailure_nil]

theorem setClock_data (f : List Byte) (s : State) : (setClock f s).data = [] := by
  unfold setClock
  dsimp only
  split <;> rfl

/-- Settles O47: the first of the two checks that fails, or by the clock's validity, FORCE and the size of the step. -/
theorem setClockActs : Obligations.SetClockActs := by
  intro f r s u h
  let answer : ResultCode → State → Prop := fun result v => exec .setClock s = .next (answered r 17 result [] v)
  have hperformed : exec .setClock s
      = .next (answered r 17 (setClock f u).result (setClock f u).data (setClock f u).state) :=
    request_answers (by decide) (by decide) h setClock
  rw [setClock_data] at hperformed
  have hanswer := (setClock_answers answer f u).mp hperformed
  rwa [setClockNow_answers answer, setUnforced_answers answer, firstSetting_eq, setForced_eq] at hanswer

end Sys2Proof.Accounts
end

section
/-! SUPPORT. The statements' words about a REPLY's valve states and the order it completes, each tied to the model's
operation of the same meaning. -/

namespace Sys2Proof.Laws

open Sys2Proof Sys2Proof.Machine Sys2Proof.Claims

/-! ### Words: valve states (R46) -/

theorem valveStateOf_eq_valveStateIn (o : Byte) : valveStateOf o = valveStateIn o.toNat := by
  unfold valveStateOf valveStateIn
  generalize o.toNat = n
  match n with
  | 0 => rfl
  | 1 => rfl
  | 2 => rfl
  | 3 => rfl
  | n + 4 => rfl

/-- R46: the confirmed states a body of 11 octets gives, where the holder has a Routing Record. -/
theorem takeValveStates_eq_valveStatesTaken (h : Nat) (body : List Byte) (s : State) :
    takeValveStates h body s = valveStatesTaken h body s := by
  unfold takeValveStates valveStatesTaken
  by_cases hbody : body.length = 11
  · cases hq : s.routing h with
    | none => simp [hbody]
    | some q =>
      simp only [hbody, if_true, formOutletSet_putRouting _ hq, valveStateOf_eq_valveStateIn]
      rfl
  · simp [hbody]

/-! ### Words: completion of an order (R70 to R72, R83) -/

/-- R70: a REPLY's result is DONE where its result octet is 0. -/
theorem replyResult_done_iff (body : List Byte) : replyResult body = .done ↔ resultDone body = true := by
  unfold replyResult resultDone
  cases body[3]? with
  | none => simp
  | some o =>
    dsimp only [Option.any_some]
    rw [beq_iff_eq]
    split
    · simp [*]
    · simp [*]
    · simp [*]
    · rename_i hdone _ _
      exact iff_of_false (by decide) hdone

theorem replyResult_beq_done (body : List Byte) : (replyResult body == .done) = resultDone body := by
  rw [Bool.eq_iff_iff, beq_iff_eq, replyResult_done_iff]

theorem isSet_iff (o : Order) : o.isSet = true ↔ o.code = some 3 := beq_iff_eq

theorem isRelease_iff (o : Order) : o.isRelease = true ↔ o.code = some 4 := beq_iff_eq

theorem governorView_mode (body : List Byte) (r : District) : (governorView body r).mode = r.mode := by
  unfold governorView
  split <;> rfl

theorem governorView_lastSent (body : List Byte) (r : District) : (governorView body r).lastSent = r.lastSent := by
  unfold governorView
  split <;> rfl

/-- R83: a completed SET or RELEASE at a loaded district, whose governor view is written first. -/
theorem governorTaken_of_district {d : Nat} {s : State} {r : District} (hr : s.district d = some r) (o : Order)
    (body : List Byte) :
    governorTaken d o body s =
      if r.governor ≠ o.station then s
      else if o.code ≠ some 3 then s.putDistrict d (governorView body r)
      else
        match o.operand with
        | none => s.putDistrict d { governorView body r with setFailed := true }
        | some v =>
          if resultDone body = false then s.putDistrict d { governorView body r with setFailed := true }
          else
            let t := s.putDistrict d { governorView body r with lastSent := some v, setFailed := false }
            let t := if r.mode = .auto then t else activeWritten d v t
            if r.lastSent = some v then t else oweReference (.district d) t := by
  unfold governorTaken
  rw [hr]
  rfl

/-- R83: a completed SET or RELEASE at a district. -/
theorem governorCompletion_eq_governorTaken (d : Nat) (o : Order) (body : List Byte) (s : State) :
    governorCompletion d o.station o body s = governorTaken d o body s := by
  cases hr : s.district d with
  | none => simp only [governorCompletion, governorTaken, hr]
  | some r =>
    have hmode := governorView_mode body r
    have hlast := governorView_lastSent body r
    rw [governorTaken_of_district hr]
    simp only [governorCompletion, hr]
    generalize governorView body r = seen at hmode hlast ⊢
    refine if_congr Iff.rfl rfl ?_
    by_cases hset : o.code = some 3
    · rw [if_pos ((isSet_iff o).mpr hset), if_neg (not_not_intro hset)]
      cases o.operand with
      | none => cases replyResult body <;> rfl
      | some v =>
        cases hdone : resultDone body with
        | true =>
          simp only [(replyResult_done_iff body).mpr hdone, hmode, hlast, writeActive_eq_activeWritten, ite_not]
          rfl
        | false =>
          have hresult : replyResult body ≠ .done := by simp [replyResult_done_iff, hdone]
          cases hx : replyResult body with
          | done => exact absurd hx hresult
          | _ => rfl
    · rw [if_neg (mt (isSet_iff o).mp hset), if_pos hset]

/-- R72: ORDER-FAILED judged by the result. -/
theorem judgeOrderFailed_eq (d : Nat) (body : List Byte) (s : State) :
    judgeOrderFailed d body s = if resultDone body then cleared .orderFailed d s else raised .orderFailed d s := by
  unfold judgeOrderFailed
  cases hresult : replyResult body with
  | done => rw [if_pos ((replyResult_done_iff body).mp hresult)]; rfl
  | _ => rw [if_neg (mt (replyResult_done_iff body).mpr (by simp [hresult]))]; rfl

/-- R57, R59: the ending of an automatic CLOSE at the holder whose valve station it was for. -/
theorem handCloseEnding_eq (o : Order) (done : Bool) (s : State) :
    handCloseEnding o done true s = (s.holderOfStation o.station).elim s (fun h => closeEnding h o done s) := by
  unfold handCloseEnding
  cases s.holderOfStation o.station with
  | none => rfl
  | some h => exact Interlocks.closeEnded_eq_closeEnding h o done s

/-- R71, R83: a completed office SET or RELEASE at the district of its station. -/
theorem officeCompletion_eq (o : Order) (body : List Byte) (s : State) :
    officeCompletion o body s =
      if o.body.length = 3 ∧ (o.code = some 3 ∨ o.code = some 4) then
        (s.districtOfStation o.station).elim s (fun d => governorTaken d o body s)
      else s := by
  unfold officeCompletion
  simp only [isSet_iff, isRelease_iff, governorCompletion_eq_governorTaken]
  cases s.districtOfStation o.station <;> rfl

/-- R70 to R72: the completion of an order, by its origin. -/
theorem completeOrder_eq_orderCompleted (a : Nat) (o : Order) (body : List Byte) (s : State) :
    completeOrder a o body s = orderCompleted a o body s := by
  unfold completeOrder orderCompleted automaticCompletion
  rw [serve_eq_headTaken]
  change headTaken a (if o.origin == .office then _ else _) = _
  cases o.origin with
  | office => exact congrArg (headTaken a) (officeCompletion_eq o body _)
  | interlock =>
    simp only [handCloseEnding_eq, replyResult_beq_done]
    rfl
  | scheduler d =>
    simp only [judgeOrderFailed_eq, governorCompletion_eq_governorTaken]
    rfl

end Sys2Proof.Laws
end

section
/-! SUPPORT. The statement about REPLY. -/

namespace Sys2Proof.Relay

open Sys2Proof Sys2Proof.Machine Sys2Proof.Claims Sys2Proof.Laws Sys2Proof.Points

/-- R70: the body of a REPLY that matches an order has three octets, with the order's code and operand. -/
theorem replyMatches_iff (o : Order) (body : List Byte) : replyMatches o body = true ↔ bodyMatches body o := by
  unfold replyMatches bodyMatches
  by_cases hlength : 3 ≤ body.length
  · have hoperand : operandOf body = some (field body 1 2) := if_pos hlength
    have hcode : orderCode body = some (octetAt body 0) := by
      cases body with
      | nil => cases hlength
      | cons x l => rfl
    simp only [hlength, hoperand, hcode, decide_true, true_and, Bool.true_and, Bool.and_eq_true, beq_iff_eq]
    exact ⟨fun ⟨⟨_, hc⟩, ho⟩ => ⟨hc.symm, ho.symm⟩, fun ⟨hc, ho⟩ => by simp [hc, ho]⟩
  · simp [hlength]

theorem matchedOrder_of_match {a : Nat} {body : List Byte} {s : State} {e : Station} {o : Order}
    (he : s.station a = some e) (ho : e.slot.order? = some o) (hm : bodyMatches body o) :
    matchedOrder a body s = some o := by
  simp [matchedOrder, he, ho, (replyMatches_iff o body).mpr hm]

theorem matchedOrder_of_no_match {a : Nat} {body : List Byte} {s : State}
    (hm : ∀ e o, s.station a = some e → e.slot.order? = some o → ¬ bodyMatches body o) :
    matchedOrder a body s = none := by
  unfold matchedOrder
  cases he : s.station a with
  | none => rfl
  | some e =>
    cases ho : e.slot.order? with
    | none => simp [ho]
    | some o => simp [ho, mt (replyMatches_iff o body).mp (hm e o he ho)]

/-- R133, R46: the state once a REPLY's source is heard and its valve states are taken. -/
def replyHeard (r : Received) (b : Branch) (s : State) : State :=
  let h := hear (sourceOf r.octets) b s
  match h.holderOfStation (sourceOf r.octets) with
  | some k => valveStatesTaken k (bodyOf r.octets) h
  | none => h

theorem interlockReply_hear (r : Received) (b : Branch) (s : State) :
    interlockReply (sourceOf r.octets) (bodyOf r.octets) (hear (sourceOf r.octets) b s) = replyHeard r b s := by
  unfold interlockReply replyHeard
  dsimp only
  cases (hear (sourceOf r.octets) b s).holderOfStation (sourceOf r.octets) with
  | none => rfl
  | some k => exact takeValveStates_eq_valveStatesTaken k _ _

theorem passReply_completes {r : Received} {b : Branch} {s : State} {o : Order}
    (hm : matchedOrder (sourceOf r.octets) (bodyOf r.octets) (replyHeard r b s) = some o) :
    passReply r b s =
      let w := orderCompleted (sourceOf r.octets) o (bodyOf r.octets) (replyHeard r b s)
      if o.fromOffice ∧ mayCross b .o w.settings.enables then enqueue .o true ⟨r.buffer, r.octets, .plain⟩ w
      else freeBuffer r.buffer w := by
  simp only [passReply, interlockReply_hear, hm, completeOrder_eq_orderCompleted, forwardCompletion,
    fieldEnabled_eq_mayCross, ite_and]

theorem passReply_resolves {r : Received} {b : Branch} {s : State}
    (hm : matchedOrder (sourceOf r.octets) (bodyOf r.octets) (replyHeard r b s) = none) :
    passReply r b s = resolved r b true (some r.octets) (replyHeard r b s) := by
  simp only [passReply, interlockReply_hear, hm, forwardField_eq_resolved]

/-- Settles O15: the oldest REPLY of a field port is passed, and the order in its source's slot decides what becomes
of it. -/
theorem replyIsPassed : Obligations.ReplyIsPassed := by
  intro p b s u r hr hb ht hk a body h v
  have hexec : exec (.reply p) s = .next (passReply r b u) := by
    change execReply p s = _
    rw [execReply, arrival_acts hr (oldestIs_of_taken ht hk), passField_of_taken hb ht]
  have hheard : v = replyHeard r b u := rfl
  rw [hexec, hheard]
  refine ⟨fun e o he ho hm => ?_, fun hm => ?_⟩
  · exact congrArg Host.Outcome.next (passReply_completes (matchedOrder_of_match he ho hm))
  · exact congrArg Host.Outcome.next (passReply_resolves (matchedOrder_of_no_match hm))

end Sys2Proof.Relay
end

section
/-! SUPPORT. The statements' words about office COMMANDs, each tied to the model's operation of the same meaning. -/

namespace Sys2Proof.Laws

open Sys2Proof Sys2Proof.Machine Sys2Proof.Claims

theorem officeEnabled_eq_officeMaySend (p : Port) (s : State) :
    officeEnabled p s = officeMaySend p s.settings.enables := by
  cases p <;> rfl

/-- R152: whether a taking charged to a port may take a general buffer. -/
theorem mayTakeGeneral_eq_generalFor (p : Port) (s : State) : mayTakeGeneral (some p) s = generalFor p s := by
  unfold mayTakeGeneral generalFor
  cases s.settings.poolMode <;> simp [Bool.decide_and]

/-- R136, R151: the further copy to S, or its loss counted at port O. -/
theorem furtherCopy_eq (r : Received) (s : State) :
    furtherCopy r s =
      if generalFor .o s then
        enqueue .s true ⟨⟨.general, some .o⟩, r.octets, .plain⟩ (holdingTest
          { s with line :=
            { s.line with freeGeneral := s.line.freeGeneral - 1 }.setCharge .o (s.line.charge .o + 1) })
      else s.modPort .o (fun q => { q with dropped := counted q.dropped }) := by
  unfold furtherCopy takeGeneral
  rw [mayTakeGeneral_eq_generalFor]
  cases generalFor .o s <;> rfl

/-- R136, R137: a COMMAND for both branches, by the two enables. -/
theorem forwardBoth_eq_sentToBoth (r : Received) (s : State) : forwardBoth r s = sentToBoth r s := by
  unfold forwardBoth sentToBoth
  simp only [officeEnabled_eq_officeMaySend, furtherCopy_eq]
  cases officeMaySend .n s.settings.enables <;> cases officeMaySend .s s.settings.enables <;> rfl

theorem forwardOne_eq (r : Received) (p : Port) (s : State) :
    forwardOne r p s =
      if officeMaySend p s.settings.enables then enqueue p true ⟨r.buffer, r.octets, .plain⟩ s
      else freeBuffer r.buffer s := by
  rw [forwardOne, officeEnabled_eq_officeMaySend]
  rfl

/-- R63: an office order placed at the tail of a station's list. -/
theorem placeOffice_eq_officePlaced (a : Nat) (body : List Byte) (s : State) :
    placeOffice a body s = officePlaced a body s :=
  serve_eq_headTaken a _

end Sys2Proof.Laws
end

section
/-! SUPPORT. The statement about OFFICE_COMMAND. -/

namespace Sys2Proof.Relay

open Sys2Proof Sys2Proof.Machine Sys2Proof.Claims Sys2Proof.Laws Sys2Proof.Points

/-- R63, R135: a COMMAND that no check refuses, by what is known of its address. -/
theorem dispatchCommand_eq (r : Received) (a : Nat) (s : State) :
    dispatchCommand r a s =
      match s.station a, s.stranger a with
      | some e, _ =>
        if e.pendingList.length < 4 then freeBuffer r.buffer (officePlaced a (bodyOf r.octets) s)
        else oweRefusal a (bodyOf r.octets) .busy (freeBuffer r.buffer s)
      | none, some g =>
        if officeMaySend g.branch.port s.settings.enables then
          enqueue g.branch.port true ⟨r.buffer, r.octets, .plain⟩ s
        else freeBuffer r.buffer s
      | none, none => sentToBoth r s := by
  unfold dispatchCommand
  cases s.station a with
  | some e => simp only [listHasRoom, decide_eq_true_eq, placeOffice_eq_officePlaced]; rfl
  | none =>
    cases s.stranger a with
    | some g => exact forwardOne_eq r g.branch.port s
    | none => exact forwardBoth_eq_sentToBoth r s

/-- Settles O16: the oldest telegram of port O is passed by its destination, its checks and what is known of its
address, and the drain follows. -/
theorem officeCommandIsResolved : Obligations.OfficeCommandIsResolved := by
  intro s u r hr ht hk a body refused
  have hexec : exec .officeCommand s = .next (drain (passCommand r u)) := by
    change execOfficeCommand s = _
    rw [execOfficeCommand, arrival_acts hr (oldestIs_of_taken ht hk), passOffice, ht]
  rw [hexec]
  refine congrArg (fun v => Host.Outcome.next (drain v)) ?_
  unfold passCommand
  refine if_congr Iff.rfl rfl (if_congr Iff.rfl (forwardBoth_eq_sentToBoth r u) ?_)
  cases commandRefusal a body u with
  | some reason => rfl
  | none =>
    refine (dispatchCommand_eq r a u).trans ?_
    cases u.station a with
    | some e => rfl
    | none => cases u.stranger a <;> rfl

end Sys2Proof.Relay
end

section
/-! SUPPORT. What the Alarm List's operations keep of a directory entry changed beside them, and what hearing a station
writes. -/

namespace Sys2Proof.Laws

open Sys2Proof Sys2Proof.Machine Sys2Proof.Claims

/-! ### Alarms beside a directory entry (R163) -/

section Beside

variable (a : Nat) (f g : Station → Station) (key : AlarmKey) (s : State)

theorem oweAlarmIfEnabled_modStation :
    oweAlarmIfEnabled key (s.modStation a f) = (oweAlarmIfEnabled key s).modStation a f := by
  have henabled : reportEnabled key.kind (s.modStation a f) = reportEnabled key.kind s := rfl
  have hreferenced : referenced (.alarm key) (s.modStation a f) = referenced (.alarm key) s := rfl
  unfold oweAlarmIfEnabled oweAlarm
  rw [henabled, hreferenced, modStation_backlog]
  split_ifs <;> rfl

/-- R163: an alarm is raised alike before and after a directory entry is changed. -/
theorem raiseAlarm_modStation : raiseAlarm key (s.modStation a f) = (raiseAlarm key s).modStation a f := by
  have hfound : findAlarm key (s.modStation a f) = findAlarm key s := rfl
  unfold raiseAlarm
  rw [hfound, modStation_alarms]
  cases findAlarm key s with
  | some r =>
    dsimp only
    rw [← oweAlarmIfEnabled_modStation]
    rfl
  | none =>
    dsimp only
    by_cases hroom : s.alarms.length < Config.alarmRecords
    · rw [if_pos hroom, if_pos hroom, ← oweAlarmIfEnabled_modStation]
      rfl
    · rw [if_neg hroom, if_neg hroom]
      cases s.alarms.find? (fun r => r.state == .clearedUnacked) with
      | some oldest => exact oweAlarmIfEnabled_modStation a f key (appendAlarm key (removeAlarm oldest s))
      | none => rfl

theorem modStation_modStation (hf : ∀ e, (f e).address = e.address) :
    (s.modStation a f).modStation a g = s.modStation a (fun e => g (f e)) := by
  unfold State.modStation
  simp only [List.map_map]
  congr 2
  funext e
  by_cases he : e.address = a <;> simp [he, hf]

end Beside

end Sys2Proof.Laws
end

section
/-! SUPPORT. The statement about what hearing a station writes. -/

namespace Sys2Proof.Relay

open Sys2Proof Sys2Proof.Machine Sys2Proof.Claims Sys2Proof.Laws

/-- R122: a directory entry once its station is heard. -/
def entryHeard (b : Branch) (now : Option Nat) (e : Station) : Station :=
  { e with
    branch := some b, migrations := if e.branch = some b.other then min 255 (e.migrations + 1) else e.migrations
    lastHeard := now, liveness := .live
    waitingTimer := if e.waitingTime = 0 then e.waitingTimer else .running e.waitingTime }

/-- R122: the branch is learned, or the station has migrated, and then the hearing is marked. -/
theorem markHeard_learnBranch (b : Branch) (now : Option Nat) (e : Station) :
    markHeard now (learnBranch b e) = entryHeard b now e := by
  obtain ⟨_, _, _, _, _, branch, _, _, _, _, _, _⟩ := e
  cases branch with
  | none => rfl
  | some held => cases held <;> cases b <;> rfl

theorem learnBranch_address (b : Branch) (e : Station) : (learnBranch b e).address = e.address := by
  unfold learnBranch
  split
  · rfl
  · split <;> rfl

/-- R122, R123: what hearing a configured station does. -/
theorem hear_of_station {a : Nat} {s : State} {e : Station} (b : Branch) (he : s.station a = some e) :
    hear a b s =
      let w := s.modStation a (entryHeard b s.timeNow)
      let w := if e.branch = some b.other then raised .stationMoved a w else w
      if e.liveness = .live then w else cleared .stationSilent a w := by
  have hheard : ∀ v : State, (v.modStation a (learnBranch b)).modStation a (markHeard s.timeNow)
      = v.modStation a (entryHeard b s.timeNow) := fun v => by
    rw [modStation_modStation _ _ _ _ (learnBranch_address b)]
    exact congrArg (v.modStation a) (funext (markHeard_learnBranch b s.timeNow))
  simp only [hear, he, hearStation, station_address he]
  by_cases hmoved : e.branch = some b.other
  · have htime : (raiseAlarm (alarmKey .stationMoved a) s).timeNow = s.timeNow :=
      (congrArg State.timeNow (RecordsOnly.raiseAlarm (alarmKey .stationMoved a) s) :)
    simp only [hmoved, if_true, raiseAlarm_modStation, modStation_timeNow, htime, hheard, raised]
    rfl
  · simp only [hmoved, if_false, modStation_timeNow, hheard]
    rfl

/-- R123: hearing a configured station writes its entry. -/
theorem hear_entry {a : Nat} {s : State} {e : Station} (b : Branch) (he : s.station a = some e) :
    (hear a b s).station a = some (entryHeard b s.timeNow e) ∧ (hear a b s).strangers = s.strangers ∧
      (e.branch ≠ some b.other → e.liveness = .live → (hear a b s).alarms = s.alarms) := by
  have hentry : (s.modStation a (entryHeard b s.timeNow)).station a = some (entryHeard b s.timeNow e) :=
    modStation_station_self (fun _ => rfl) he
  have hmoved (v : State) : RecordsOnly v (if e.branch = some b.other then raised .stationMoved a v else v) := by
    split
    · exact .raiseAlarm _ v
    · exact .refl v
  have hrecords : RecordsOnly (s.modStation a (entryHeard b s.timeNow)) (hear a b s) := by
    rw [hear_of_station b he]
    dsimp only
    split
    · exact hmoved _
    · exact (hmoved _).trans (.clearAlarm _ _)
  refine ⟨(hrecords.station a).trans hentry, (congrArg State.strangers hrecords :), fun hstays hlive => ?_⟩
  simp only [hear_of_station b he, if_neg hstays, if_pos hlive, modStation_alarms]

/-- R128: what hearing a station that is not configured does. -/
theorem hear_of_stranger {a : Nat} {s : State} (b : Branch) (ha : s.station a = none) :
    hear a b s =
      let count := (s.stranger a).elim 1 (fun e => min 65535 (e.telegrams + 1))
      let others := s.strangers.filter (fun e => e.address != a)
      let kept := if s.stranger a = none ∧ 8 ≤ s.strangers.length then others.drop 1 else others
      { s with strangers := kept ++ [⟨a, b, count, s.timeNow, .running 600⟩] } := by
  simp only [hear, ha, hearStranger]
  cases hs : s.stranger a with
  | some e =>
    have haddress : e.address = a := by simpa using List.find?_some hs
    simp [haddress]
  | none =>
    have hothers : s.strangers.filter (fun e => e.address != a) = s.strangers :=
      List.filter_eq_self.mpr (by simpa [State.stranger] using hs)
    rw [hothers]
    by_cases hroom : s.strangers.length < 8
    · simp [hroom, Nat.not_le.mpr hroom]
    · simp [hroom, Nat.not_lt.mp hroom]

/-- Settles O18: the entry, the stranger list and the alarms are read off what hearing does, by whether the station is
configured. -/
theorem hearingWrites : Obligations.HearingWrites := by
  refine fun a b s => ⟨fun e he => ?_, fun ha => hear_of_stranger b ha⟩
  obtain ⟨hentry, hstrangers, halarms⟩ := hear_entry b he
  exact ⟨hentry, hstrangers, halarms, hear_of_station b he⟩

end Sys2Proof.Relay
end

section
/-! SUPPORT. The statements' words about a station's orders and closure sequence ended with it, each tied to the model's
operation of the same meaning, and what these endings leave. -/

namespace Sys2Proof.Laws

open Sys2Proof Sys2Proof.Machine Sys2Proof.Claims

/-! ### Words: endings with a station (R58, R76) -/

/-- R76: a SET that ends with its station sets the set-failed flag of the district that issued it. -/
theorem setFailed_quiet_eq (d a : Nat) (s : State) :
    setFailed false d a s =
      match s.district d with
      | none => s
      | some r => if r.governor = a then s.putDistrict d { r with setFailed := true } else s := rfl

theorem clearOrder_eq_orderDropped (s : State) (o : Order) : clearOrder s o = orderDropped s o := by
  unfold clearOrder orderDropped
  cases o.origin with
  | office => rfl
  | interlock => rfl
  | scheduler d =>
    simp only [isSet_iff, setFailed_quiet_eq]
    cases s.district d with
    | none => exact ite_self _
    | some r => exact (ite_and _ _ _ _).symm

theorem clearOrders_eq_ordersDropped (a : Nat) (s : State) : clearOrders a s = ordersDropped a s := by
  unfold clearOrders ordersDropped
  rw [funext₂ clearOrder_eq_orderDropped]
  rfl

theorem dropSequence_eq_sequenceDropped (h : Nat) (l : List Closure) (s : State) :
    dropSequence h l s = sequenceDropped h l s := by
  induction l generalizing s with
  | nil => rfl
  | cons c rest ih =>
    unfold dropSequence sequenceDropped
    cases hq : s.routing h with
    | none => rfl
    | some q =>
      simp only [ih, setSequence_of_routing hq, closeOutcome_eq_closeJudged]
      rfl

theorem endSequence_eq (a : Nat) (s : State) :
    endSequence a s =
      match s.holderOfStation a with
      | none => s
      | some h => (s.routing h).elim s (fun q => sequenceDropped h q.sequence s) := by
  unfold endSequence
  cases s.holderOfStation a with
  | none => rfl
  | some h =>
    cases hq : s.routing h with
    | none => simp only [hq, Option.elim_none]
    | some q => simp only [hq, dropSequence_eq_sequenceDropped, Option.elim_some]

/-! ### What the endings leave -/

/-- The yard blocks change no stranger. -/
theorem Yard.strangers_eq {s t : State} (h : Yard s t) : t.strangers = s.strangers := by
  induction h with
  | trans _ _ ih ih' => rw [ih', ih]
  | full s => exact (Directory.DirectoryKept.records (.oweFull _ s)).2
  | reference s => exact (Directory.DirectoryKept.records (.oweReference _ s)).2
  | alarmEntry s => exact (Directory.DirectoryKept.oweAlarm _ s).2
  | outlet s => exact (Directory.DirectoryKept.writeOutletSet _ _ s).2
  | _ => rfl

theorem clearOrder_supply (s : State) (o : Order) : SupplyOnly s (clearOrder s o) := by
  unfold clearOrder
  split
  · exact .records (.oweFull _ s)
  · exact .refl s
  · split
    · rw [setFailed_quiet_eq]
      split
      · exact .refl s
      · split <;> rfl
    · exact .refl s

theorem clearOrders_holders (a : Nat) (s : State) : (clearOrders a s).holders = s.holders := by
  unfold clearOrders
  split
  · rfl
  · exact (SupplyOnly.foldl clearOrder_supply _ _).holders

theorem dropSequence_holders (h : Nat) (l : List Closure) (s : State) :
    (dropSequence h l s).holders = s.holders := by
  induction l generalizing s with
  | nil => exact setSequence_holders _ _ _ _
  | cons c rest ih =>
    unfold dropSequence
    split
    · rfl
    · rw [ih, closeOutcome_holders, setSequence_holders]

theorem endSequence_holders (a : Nat) (s : State) : (endSequence a s).holders = s.holders := by
  unfold endSequence
  split
  · rfl
  · split
    · rfl
    · exact dropSequence_holders _ _ _

end Sys2Proof.Laws
end

section
/-! SUPPORT. The statements about LOAD-STATION and DROP-STATION. -/

namespace Sys2Proof.Stations

open Sys2Proof Sys2Proof.Machine Sys2Proof.Claims Sys2Proof.Laws Sys2Proof.Points

/-! ### The directory in ascending address (R120) -/

section Insert

variable {e : Station} {l : List Station}

theorem insertStation_find (h : ∀ q ∈ l, q.address ≠ e.address) :
    (insertStation e l).find? (fun q => q.address == e.address) = some e := by
  induction l with
  | nil => simp [insertStation]
  | cons q l ih =>
    obtain ⟨hq, hl⟩ := List.forall_mem_cons.mp h
    unfold insertStation
    split
    · simp
    · rw [List.find?_cons_of_neg (by simpa using hq), ih hl]

theorem insertStation_others (h : ∀ q ∈ l, q.address ≠ e.address) :
    (insertStation e l).filter (fun q => q.address != e.address) = l := by
  have hrest : l.filter (fun q => q.address != e.address) = l := List.filter_eq_self.mpr (by simpa using h)
  induction l with
  | nil => simp [insertStation]
  | cons q l ih =>
    obtain ⟨hq, hl⟩ := List.forall_mem_cons.mp h
    unfold insertStation
    split
    · rw [List.filter_cons_of_neg (by simp), hrest]
    · rw [List.filter_cons_of_pos (by simpa using hq), ih hl (List.filter_eq_self.mpr (by simpa using hl))]

end Insert

/-! ### LOAD_STATION (R130, R131) -/

theorem loadStation_format_iff (f : List Byte) :
    (f.length != 7 || (stationKindOf (octetAt f 1)).isNone) = true ↔
      f.length ≠ 7 ∨ stationKindOf (octetAt f 1) = none := by
  simp

theorem largestLink_eq_linkLimit (k : StationKind) : largestLink k = linkLimit k := by
  cases k <;> rfl

theorem loadStation_range_iff (x : StationFields) :
    (outside 1 239 x.address || decide (largestLink x.kind < x.linked) || decide (600 < x.waitingTime)
      || outside 500 10000 x.replyTime) = true ↔
      x.address < 1 ∨ 239 < x.address ∨ linkLimit x.kind < x.linked ∨ 600 < x.waitingTime ∨ x.replyTime < 500 ∨
        10000 < x.replyTime := by
  simp [outside, largestLink_eq_linkLimit, or_assoc]

/-- R131: an entry rewritten in its configured fields. -/
theorem storeStation_again {x : StationFields} {s : State} {e : Station} (he : s.station x.address = some e) :
    storeStation x s = s.modStation x.address (rewriteStation x) := by
  simp only [storeStation, he]

/-- R130: a new entry in the place of the stranger of its address. -/
theorem storeStation_new {x : StationFields} {s : State} (hn : s.station x.address = none) :
    storeStation x s = { s with
      strangers := s.strangers.filter (fun e => e.address != x.address)
      directory := insertStation (newStation x (s.stranger x.address)) s.directory } := by
  simp only [storeStation, hn]

/-- R130: the configured fields a LOAD-STATION of a kind carries. -/
def fieldsCarried (f : List Byte) (kind : StationKind) : StationFields :=
  ⟨octetAt f 0, kind, octetAt f 2, field f 3 2, field f 5 2⟩

/-- R130: the first of the last two checks that fails, or the entry stored, where the first check passes. -/
theorem loadStation_of_kind {f : List Byte} {kind : StationKind} (hlength : f.length = 7)
    (hk : stationKindOf (octetAt f 1) = some kind) (s : State) :
    loadStation f s =
      let x := fieldsCarried f kind
      if x.address < 1 ∨ 239 < x.address ∨ linkLimit kind < x.linked ∨ 600 < x.waitingTime ∨ x.replyTime < 500 ∨
          10000 < x.replyTime then ⟨.outOfRange, [], s⟩
      else if s.station x.address = none ∧ 48 ≤ s.directory.length then ⟨.full, [], s⟩
      else ⟨.accepted, [], storeStation x s⟩ := by
  have hrange := loadStation_range_iff (fieldsCarried f kind)
  have hformat : ¬ (f.length != 7 || (some kind).isNone) = true := by simp [hlength]
  have hgood : ∀ rest, firstFailure ((_, .badFormat) :: rest) = firstFailure rest := fun rest =>
    firstFailure_next hformat
  simp only [loadStation, hk, Option.getD_some]
  split_ifs with hwrong hfull
  · exact judge_fails ((hgood _).trans (firstFailure_here (hrange.mpr hwrong))) _ _
  · obtain ⟨hn, hlong⟩ := hfull
    exact judge_fails ((hgood _).trans ((firstFailure_next (mt hrange.mp hwrong)).trans
      (firstFailure_here (Bool.and_eq_true_iff.mpr ⟨Option.isNone_iff_eq_none.mpr hn, decide_eq_true hlong⟩)))) _ _
  · exact judge_accepts ((hgood _).trans ((firstFailure_next (mt hrange.mp hwrong)).trans
      (firstFailure_next fun hno => hfull
        ((Bool.and_eq_true_iff.mp hno).imp Option.isNone_iff_eq_none.mp of_decide_eq_true)))) _ _

theorem address_ne_of_station_none {a : Nat} {s : State} (h : s.station a = none) : ∀ q ∈ s.directory, q.address ≠ a :=
  fun _ hq ha => Directory.address_notMem_of_station_none h (List.mem_map.mpr ⟨_, hq, ha⟩)

/-- Settles O34: the first of the three checks that fails, or the entry stored, by whether the address has one. -/
theorem loadStationActs : Obligations.LoadStationActs := by
  intro f r s u h a wait reply answer timer
  have performed : ∀ {result : ResultCode} {v : State}, loadStation f u = ⟨result, [], v⟩ → answer result v :=
    request_of_performed h (by decide) (by decide)
  refine ⟨fun hbad => performed (judge_fails (firstFailure_here ((loadStation_format_iff f).mpr hbad)) _ _),
    fun kind hlength hk => ?_⟩
  have hloaded := loadStation_of_kind hlength hk u
  by_cases hwrong : a < 1 ∨ 239 < a ∨ linkLimit kind < octetAt f 2 ∨ 600 < wait ∨ reply < 500 ∨ 10000 < reply
  · rw [if_pos hwrong]
    exact performed (hloaded.trans (if_pos hwrong))
  rw [if_neg hwrong]
  replace hloaded := hloaded.trans (if_neg hwrong)
  cases ha : u.station a with
  | some e =>
    have hentry : ¬ (u.station a = none ∧ 48 ≤ u.directory.length) := by simp [ha]
    refine performed (hloaded.trans ((if_neg hentry).trans ?_))
    rw [storeStation_again (x := fieldsCarried f kind) ha]
    rfl
  | none =>
    dsimp only
    by_cases hfull : 48 ≤ u.directory.length
    · rw [if_pos hfull]
      exact performed (hloaded.trans (if_pos ⟨ha, hfull⟩))
    · let e := newStation (fieldsCarried f kind) (u.stranger a)
      have hothers : ∀ q ∈ u.directory, q.address ≠ e.address := address_ne_of_station_none ha
      rw [if_neg hfull]
      refine ⟨insertStation e u.directory, performed (hloaded.trans ((if_neg fun hno => hfull hno.2).trans ?_)),
        insertStation_find hothers, insertStation_others hothers, (Directory.insertStation_perm e _).length_eq⟩
      rw [storeStation_new (x := fieldsCarried f kind) ha]
      rfl

/-! ### DROP_STATION (R132) -/

theorem removeStation_eq (a : Nat) (s : State) :
    removeStation a s =
      let w := ordersDropped a s
      let w := match w.holderOfStation a with
        | none => w
        | some h => (w.routing h).elim w (fun q => sequenceDropped h q.sequence w)
      let w := cleared .stationSilent a (w.modStation a (fun e => { e with waitingTimer := .stopped }))
      { w with directory := w.directory.filter (fun e => e.address != a) } := by
  simp only [removeStation, endSequence_eq, clearOrders_eq_ordersDropped]
  rfl

/-- R132: the entry of a station dropped is gone; points, strangers and holders stay. -/
theorem removeStation_leaves (a : Nat) (s : State) :
    (removeStation a s).station a = none ∧ (removeStation a s).points = s.points ∧
      (removeStation a s).strangers = s.strangers ∧ (removeStation a s).holders = s.holders := by
  let w := endSequence a (clearOrders a s)
  have hended : Yard s w := Yard.endSequence a (Yard.clearOrders a (.refl s))
  have hholders : w.holders = s.holders := (endSequence_holders a _).trans (clearOrders_holders a s)
  have hcleared := RecordsOnly.clearAlarm (alarmKey .stationSilent a)
    (w.modStation a (fun e => { e with waitingTimer := .stopped }))
  refine ⟨by simp [removeStation, State.station], ?_, ?_, ?_⟩
  · exact (congrArg State.points hcleared :).trans hended.points_eq
  · exact (congrArg State.strangers hcleared :).trans hended.strangers_eq
  · exact (congrArg State.holders hcleared :).trans hholders

/-- Settles O35: the first of the three checks that fails, or the station's orders and closures ended and its entry
removed. -/
theorem dropStationActs : Obligations.DropStationActs := by
  intro f r s u h a answer
  have performed : ∀ {result : ResultCode} {v : State}, dropStation f u = ⟨result, [], v⟩ → answer result v :=
    request_of_performed h (by decide) (by decide)
  have hrange : outside 1 239 a = true ↔ a < 1 ∨ 239 < a := decide_eq_true_iff
  split_ifs with hlength hwrong hn
  · exact performed (judge_fails (firstFailure_here (bne_iff_ne.mpr hlength)) _ _)
  · exact performed (judge_fails ((firstFailure_next (mt bne_iff_ne.mp hlength)).trans
      (firstFailure_here (hrange.mpr hwrong))) _ _)
  · exact performed (judge_fails ((firstFailure_next (mt bne_iff_ne.mp hlength)).trans
      ((firstFailure_next (mt hrange.mp hwrong)).trans (firstFailure_here (Option.isNone_iff_eq_none.mpr hn)))) _ _)
  · have haccepted : dropStation f u = ⟨.accepted, [], removeStation a u⟩ :=
      judge_accepts ((firstFailure_next (mt bne_iff_ne.mp hlength)).trans ((firstFailure_next (mt hrange.mp hwrong)).trans
        (firstFailure_next (mt Option.isNone_iff_eq_none.mp hn)))) _ _
    have hleaves := removeStation_leaves a u
    have hanswer := performed haccepted
    rw [removeStation_eq] at hanswer hleaves
    exact ⟨hanswer, hleaves⟩

end Sys2Proof.Stations
end

section
/-! SUPPORT. The statements' words about the check and the checks of reception, each tied to the model's operation of the
same meaning. -/

namespace Sys2Proof.Laws

open Sys2Proof Sys2Proof.Machine Sys2Proof.Claims

/-! ### Words: the check (R148) -/

/-- The high bit of the register, read as a number. -/
theorem msb_toNat (r : Word16) : r.msb.toNat = r.toNat / 32768 := by
  have hlt := r.isLt
  rw [BitVec.msb_eq_decide]
  by_cases h : 2 ^ 15 ≤ r.toNat
  · simp only [Nat.add_one_sub_one, h, decide_true, Bool.toNat_true]
    omega
  · simp only [Nat.add_one_sub_one, h, decide_false, Bool.toNat_false]
    omega

/-- R148: the generator is added exactly when the bit shifted out and the bit that comes in differ. -/
theorem bne_iff_sum_odd (x y : Bool) : (x != y) = true ↔ (x.toNat + y.toNat) % 2 = 1 := by
  cases x <;> cases y <;> decide

theorem checkBit_toNat (r : Word16) (b : Bool) : (checkBit r b).toNat = bitChecked r.toNat b.toNat := by
  have hshift : (r <<< 1).toNat = 2 * r.toNat % 65536 := by
    rw [BitVec.toNat_shiftLeft, Nat.shiftLeft_eq, pow_one, Nat.mul_comm]
  unfold checkBit bitChecked
  simp only [bne_iff_sum_odd, msb_toNat]
  split
  · rw [BitVec.toNat_xor, hshift]
    rfl
  · exact hshift

/-- R148: the bits of one octet, the high bit first. -/
theorem checkOctet_toNat (r : Word16) (o : Byte) :
    (checkOctet r o).toNat =
      ([7, 6, 5, 4, 3, 2, 1, 0].map (fun i => o.toNat / 2 ^ i % 2)).foldl bitChecked r.toNat := by
  rw [List.foldl_map]
  refine (List.foldl_hom BitVec.toNat fun q i => ?_).symm
  rw [checkBit_toNat, ← Nat.toNat_testBit]
  rfl

theorem check_toNat (octets : List Byte) : (check octets).toNat = checkOf octets := by
  rw [checkOf, bitsOf, List.foldl_flatMap]
  exact (List.foldl_hom BitVec.toNat fun r o => (checkOctet_toNat r o).symm).symm

/-- R148: a telegram that the part forms ends with the check of its header and body. -/
theorem frame_eq (d a k : Nat) (body : List Byte) :
    frame d a k body =
      let covered := octet d :: octet a :: octet k :: octet body.length :: body
      covered ++ [octet (checkOf covered / 256), octet (checkOf covered)] := by
  simp only [frame, octetsOf, check_toNat, pow_one, pow_zero, Nat.div_one]

/-! ### Words: the checks of reception (R141, R142) -/

theorem badLength_iff (octets : List Byte) (count : Nat) : badLength octets count = true ↔ ¬ lengthFits octets count := by
  rw [badLength, decide_eq_true_eq, bodyLengthOf, lengthFits]
  omega

theorem badCheck_iff (octets : List Byte) (mark : Bool) : badCheck octets mark = true ↔ ¬ checkFits octets mark := by
  have hlast : (octets.drop (octets.length - 2)).take 2 = octets.drop (octets.length - 2) :=
    List.take_of_length_le (by rw [List.length_drop]; omega)
  cases mark <;> simp [badCheck, checkFits, check_toNat, field, hlast]

theorem kindValid_iff (p : Port) (kind : Nat) : kindValid p kind = true ↔ kindFits p kind := by
  cases p <;> simp [kindValid, kindFits]

theorem addressValid_iff (p : Port) (source destination : Nat) :
    (sourceValid p source && destinationValid p destination) = true ↔ addressesFit p source destination := by
  cases p <;>
    simp only [sourceValid, destinationValid, isFieldAddress, officeAddress, ownAddress,
      allStations, addressesFit, Bool.and_eq_true, Bool.or_eq_true,
      decide_eq_true_eq, beq_iff_eq] <;>
    omega

section FrameFault

variable {p : Port} {octets : List Byte} {count : Nat} {mark : Bool}

/-- R141, order 1. -/
theorem frameFault_badLength (hlength : ¬ lengthFits octets count) : frameFault p octets count mark = .badLength :=
  if_pos ((badLength_iff _ _).mpr hlength)

/-- R141: the checks after that of the length. -/
theorem frameFault_of_length (hlength : lengthFits octets count) :
    frameFault p octets count mark =
      if badCheck octets mark then .badCheck
      else if !kindValid p (kindOf octets) then .badKind
      else if !(sourceValid p (sourceOf octets) && destinationValid p (destinationOf octets)) then .badAddress
      else .none :=
  if_neg (mt (badLength_iff _ _).mp (not_not_intro hlength))

/-- R141, order 2. -/
theorem frameFault_badCheck (hlength : lengthFits octets count) (hcheck : ¬ checkFits octets mark) :
    frameFault p octets count mark = .badCheck :=
  (frameFault_of_length hlength).trans (if_pos ((badCheck_iff _ _).mpr hcheck))

/-- R141: the checks after that of the check. -/
theorem frameFault_of_check (hlength : lengthFits octets count) (hcheck : checkFits octets mark) :
    frameFault p octets count mark =
      if !kindValid p (kindOf octets) then .badKind
      else if !(sourceValid p (sourceOf octets) && destinationValid p (destinationOf octets)) then .badAddress
      else .none :=
  (frameFault_of_length hlength).trans (if_neg (mt (badCheck_iff _ _).mp (not_not_intro hcheck)))

/-- R141, order 3. -/
theorem frameFault_badKind (hlength : lengthFits octets count) (hcheck : checkFits octets mark)
    (hkind : ¬ kindFits p (octetAt octets 2)) : frameFault p octets count mark = .badKind := by
  rw [frameFault_of_check hlength hcheck, kindOf, Bool.eq_false_iff.mpr (mt (kindValid_iff _ _).mp hkind)]
  rfl

/-- R141, order 4, and a good telegram. -/
theorem frameFault_of_kind (hlength : lengthFits octets count) (hcheck : checkFits octets mark)
    (hkind : kindFits p (octetAt octets 2)) :
    frameFault p octets count mark =
      if !(sourceValid p (sourceOf octets) && destinationValid p (destinationOf octets)) then .badAddress else .none := by
  rw [frameFault_of_check hlength hcheck, kindOf, (kindValid_iff _ _).mpr hkind]
  rfl

theorem frameFault_badAddress (hlength : lengthFits octets count) (hcheck : checkFits octets mark)
    (hkind : kindFits p (octetAt octets 2)) (haddress : ¬ addressesFit p (octetAt octets 1) (octetAt octets 0)) :
    frameFault p octets count mark = .badAddress := by
  rw [frameFault_of_kind hlength hcheck hkind, sourceOf, destinationOf,
    Bool.eq_false_iff.mpr (mt (addressValid_iff _ _ _).mp haddress)]
  rfl

theorem frameFault_none (hlength : lengthFits octets count) (hcheck : checkFits octets mark)
    (hkind : kindFits p (octetAt octets 2)) (haddress : addressesFit p (octetAt octets 1) (octetAt octets 0)) :
    frameFault p octets count mark = .none := by
  rw [frameFault_of_kind hlength hcheck hkind, sourceOf, destinationOf, (addressValid_iff _ _ _).mpr haddress]
  rfl

end FrameFault

/-! ### Words: receiving and sending (R140, R144, R145, R157) -/

/-- Two changes of one port, one after the other. -/
theorem modPort_modPort (s : State) (p : Port) (f g : PortState → PortState) :
    (s.modPort p f).modPort p g = s.modPort p (fun q => g (f q)) := by
  cases p <;> rfl

/-- R152: a general buffer taken with a charge to a port. -/
theorem takeGeneral_charged (p : Port) (s : State) :
    takeGeneral (some p) s =
      if generalFor p s then
        some (⟨.general, some p⟩,
          { s with line := { s.line with freeGeneral := s.line.freeGeneral - 1 }.setCharge p (s.line.charge p + 1) })
      else none := by
  unfold takeGeneral
  rw [mayTakeGeneral_eq_generalFor]
  cases p <;> rfl

theorem choose_eq_chosen (ratio : Ratio) : PortState.choose ratio = chosen ratio := by
  funext ⟨_, _, _, _, _, _, _, _, _, urgent, routine, _⟩
  cases urgent with
  | nil => cases routine <;> rfl
  | cons u us =>
    cases routine with
    | nil => rfl
    | cons r rs => cases ratio <;> rfl

theorem chooseNext_eq (p : Port) (s : State) : chooseNext p s = s.modPort p (chosen (ratioAt p s.settings)) := by
  rw [chooseNext, choose_eq_chosen]
  cases p <;> rfl

theorem separationOf_eq_separationTime (p : Port) (s : State) : separationOf p s = separationTime p s.settings := by
  cases p <;> rfl

/-- R67: the end of a copy, as an entry of its station takes it. -/
theorem copyTransmitted_eq (a send : Nat) (s : State) :
    copyTransmitted a send s = s.modStation a (fun e =>
      match e.slot with
      | .onLine o n copies =>
        if n ≠ send then e
        else if 2 ≤ copies then { e with slot := .onLine o n (copies - 1) }
        else { e with slot := .awaitingReply o e.replyTime }
      | _ => e) := by
  refine congrArg (s.modStation a) (funext fun e => ?_)
  cases e.slot with
  | onLine o n copies =>
    by_cases hn : n = send
    · by_cases hlast : copies ≤ 1
      · simp [hn, hlast, show ¬ 2 ≤ copies by omega]
      · simp [hn, hlast, show 2 ≤ copies by omega]
    · simp [hn]
  | _ => rfl

end Sys2Proof.Laws
end

section
/-! SUPPORT. What a freeing leaves: nothing but the line side, the claims, the directory, the serials, the Alarm List and
the Report Backlog changes. -/

namespace Sys2Proof.Laws

open Sys2Proof Sys2Proof.Machine

/-- Nothing has changed in the parts of the state that neither the pool nor a send nor a report writes. -/
def SendsOnly (s t : State) : Prop :=
  t = { s with
    line := t.line, claims := t.claims, directory := t.directory, serial := t.serial
    alarms := t.alarms, backlog := t.backlog }

namespace SendsOnly

variable {s t u : State}

theorem refl (s : State) : SendsOnly s s := rfl

theorem trans (h : SendsOnly s t) (k : SendsOnly t u) : SendsOnly s u := by
  unfold SendsOnly at *
  rw [k, h]

theorem of_lineOnly (h : LineOnly s t) : SendsOnly s t := by
  rw [h]
  rfl

theorem settings (h : SendsOnly s t) : t.settings = s.settings := (congrArg State.settings h :)
theorem unit (h : SendsOnly s t) : t.unit = s.unit := (congrArg State.unit h :)

theorem holdingTest (s : State) : SendsOnly s (holdingTest s) := of_lineOnly (.holdingTest (.refl s))

theorem makeSend (e : Station) (o : Order) (bs : List Buffer) (s : State) : SendsOnly s (makeSend e o bs s).2 :=
  have hserial : SendsOnly s (nextSerial s) := rfl
  hserial.trans ((of_lineOnly (.queueCopies { o with sends := o.sends + 1 } s.serial ((copyPorts e.branch).zip bs)
    (.refl _))).trans rfl)

theorem retireHead (e : Entry) (rest : List Entry) (s : State) : SendsOnly s (retireHead e rest s) := by
  unfold Machine.retireHead
  dsimp only
  split <;> rfl

theorem sendPart {test : Bool} (h : sendPart test s = some t) : SendsOnly s t := by
  unfold Machine.sendPart at h
  split at h
  · cases h
  · dsimp only at h
    split at h
    · cases h
      exact retireHead _ _ s
    · split at h
      · cases h
      · rename_i v hv
        have htaken : LineOnly s (if test = true then Machine.holdingTest v else v) := by
          split
          · exact (Part.takeForReport hv).holdingTest
          · exact Part.takeForReport hv
        have hqueued := fun p urgent x => of_lineOnly (htaken.enqueue p urgent x)
        split at h
        · cases h
          exact (hqueued _ _ _).trans (retireHead _ _ _)
        · cases h
          exact (hqueued _ _ _).trans rfl

theorem claimForBacklog (s : State) : SendsOnly s (claimForBacklog s) := by
  unfold Machine.claimForBacklog
  split <;> rfl

theorem sendReports (test : Bool) (n : Nat) (s : State) : SendsOnly s (sendReports test n s) := by
  induction n generalizing s with
  | zero => rfl
  | succ n ih =>
    unfold Machine.sendReports
    split
    · rfl
    · split
      · rename_i hv
        exact (sendPart hv).trans (ih _)
      · exact claimForBacklog s

theorem withdrawClaim (c : Claim) (s : State) : SendsOnly s (withdrawClaim c s) := rfl

theorem offerClaim {c : Claim} {bs : List Buffer} (h : offerClaim c s = some (bs, t)) : SendsOnly s t := by
  cases c with
  | send a =>
    simp only [Machine.offerClaim] at h
    split at h
    · cases h
    · rename_i e o bs' v hv
      have hmade : (Machine.makeSend e o bs' (Machine.withdrawClaim (.send a) v)).2 = t :=
        congrArg Prod.snd (Option.some.inj h)
      rw [← hmade]
      exact (of_lineOnly (takeForSend_some hv).2.2).trans ((withdrawClaim _ v).trans (makeSend e o bs' _))
  | backlog =>
    simp only [Machine.offerClaim] at h
    split at h
    · cases h
    · rename_i v hv
      cases h
      exact (sendPart hv).trans ((withdrawClaim _ v).trans (sendReports _ _ _))

theorem offerPass (l : List Claim) (s : State) : SendsOnly s (offerPass l s).2 := by
  induction l generalizing s with
  | nil => rfl
  | cons c l ih =>
    unfold Machine.offerPass
    split
    · split
      · exact ih s
      · rename_i hv
        exact (offerClaim hv).trans (ih _)
      · rename_i hv
        exact offerClaim hv
    · exact ih s

theorem foldl {α : Type} {f : State → α → State} (hf : ∀ (s : State) (x : α), SendsOnly s (f s x)) (l : List α)
    (s : State) : SendsOnly s (l.foldl f s) := by
  induction l generalizing s with
  | nil => exact refl s
  | cons x l ih => exact (hf s x).trans (ih _)

theorem releaseBuffer (b : Buffer) (s : State) : SendsOnly s (releaseBuffer b s) :=
  of_lineOnly (.releaseBuffer b (.refl s))

theorem freeing (n : Nat) (b : Buffer) (s : State) : SendsOnly s (freeing n b s) := by
  induction n generalizing b s with
  | zero => exact (releaseBuffer b s).trans (holdingTest _)
  | succ n ih =>
    have hoffered := (releaseBuffer b s).trans (offerPass (Machine.releaseBuffer b s).claims _)
    exact (hoffered.trans (foldl (fun s b => ih b s) _ _)).trans (holdingTest _)

theorem freeBuffer (b : Buffer) (s : State) : SendsOnly s (freeBuffer b s) := freeing _ b s

/-- R144: the end of a copy is written in the directory. -/
theorem handCopyEnd (x : Tag) (s : State) : SendsOnly s (handCopyEnd x s) := by
  cases x <;> rfl

end SendsOnly

end Sys2Proof.Laws
end

section
/-! SUPPORT. The statements about the receivers and the transmitters of the line ports. -/

namespace Sys2Proof.Ports

open Sys2Proof Sys2Proof.Machine Sys2Proof.Claims Sys2Proof.Laws

/-! ### Receiving (R140) -/

section Receiving

variable {p : Port} {s : State}

theorem receiverIdle_of_receiving {b : Buffer} {octets : List Byte} {count : Nat} {mark : Bool}
    (h : (s.port p).receiver = .receiving b octets count mark) : receiverIdle p s = false := by
  simp only [receiverIdle, h]

theorem receiverIdle_of_discarding {mark : Bool} (h : (s.port p).receiver = .discarding mark) :
    receiverIdle p s = false := by
  simp only [receiverIdle, h]

/-- R140: an octet after the first acts on a receiver that is not IDLE. -/
theorem octetArrives_acts (o : Byte) (faulty : Bool) (hr : isRestarting s = false) (h : receiverIdle p s = false) :
    exec (.octetArrives p o faulty) s = .next (takeOctet p o faulty s) := by
  change execOctetArrives p o faulty s = _
  rw [execOctetArrives, arrival_acts hr (congrArg not h)]

/-- R141: the frame-end timer acts on a receiver that is not IDLE. -/
theorem frameEnd_acts (hr : isRestarting s = false) (h : receiverIdle p s = false) :
    exec (.frameEnd p) s = .next (endFrame p s) := by
  change execFrameEnd p s = _
  rw [execFrameEnd, arrival_acts hr (congrArg not h)]

end Receiving

/-- Settles O8: the arrival acts on an IDLE receiver, and its taking is that of R152. -/
theorem receptionStarts : Obligations.ReceptionStarts := by
  intro p o faulty s hr hidle
  have hacts : exec (.receptionStart p o faulty) s = .next (startReception p o faulty s) :=
    arrival_acts hr (by simp only [receiverIdle, hidle])
  rw [hacts, startReception, takeGeneral_charged]
  cases generalFor p s <;> rfl

/-- Settles O9: the arrival acts on a receiver that is RECEIVING and on one that is DISCARDING. -/
theorem furtherOctetIsTaken : Obligations.FurtherOctetIsTaken := by
  intro p o faulty s hr
  refine ⟨fun b octets count mark h => ?_, fun mark h => ?_⟩
  · rw [octetArrives_acts o faulty hr (receiverIdle_of_receiving h)]
    simp only [takeOctet, h]
    rfl
  · rw [octetArrives_acts o faulty hr (receiverIdle_of_discarding h)]
    simp only [takeOctet, h]
    rfl

/-! ### The end of a frame (R141, R142) -/

section FrameEnd

variable {p : Port} {s : State} {b : Buffer} {octets : List Byte} {count : Nat} {mark : Bool}

theorem endFrame_of_discarding (h : (s.port p).receiver = .discarding mark) :
    endFrame p s = s.modPort p (fun q =>
      { q with receiver := .idle, frameEnd := .stopped, dropped := if mark then counted q.dropped else q.dropped }) := by
  simp only [endFrame, h, idleReceiver, modPort_modPort]
  cases mark <;> rfl

/-- R141: a frame with a fault is counted as bad, and its buffer is freed. -/
theorem endFrame_of_fault {fault : LineFault} (h : (s.port p).receiver = .receiving b octets count mark)
    (hfault : frameFault p octets count mark = fault) (hbad : fault ≠ .none) :
    endFrame p s = freeBuffer b (s.modPort p (fun q =>
      { q with receiver := .idle, frameEnd := .stopped, bad := counted q.bad, lastFault := fault })) := by
  have hbadTelegram : endFrame p s = badTelegram p b fault (idleReceiver p s) := by
    cases fault with
    | none => exact absurd rfl hbad
    | _ => simp only [endFrame, h, hfault]
  rw [hbadTelegram, badTelegram, idleReceiver, modPort_modPort]
  rfl

/-- R141: a frame without a fault is counted as good and stands in reception. -/
theorem endFrame_of_good (h : (s.port p).receiver = .receiving b octets count mark)
    (hfault : frameFault p octets count mark = .none) :
    endFrame p s =
      let t := s.modPort p (fun q => { q with receiver := .idle, frameEnd := .stopped, good := counted q.good })
      let t := { t with line := { t.line with received := t.line.received ++ [⟨p, b, octets⟩] } }
      if p = .o then drain t else t := by
  simp only [endFrame, h, hfault, goodTelegram, idleReceiver, modPort_modPort]
  cases p <;> rfl

end FrameEnd

/-- Settles O10: the check is R148's bit by bit, and a held frame is judged by the first check that fails. -/
theorem frameEnds : Obligations.FrameEnds := by
  refine ⟨frame_eq, fun p s hr => ⟨fun mark h => ?_, fun b octets count mark h => ?_⟩⟩
  · rw [frameEnd_acts hr (receiverIdle_of_discarding h), endFrame_of_discarding h]
  · intro bad
    have hacts := frameEnd_acts hr (receiverIdle_of_receiving h)
    have hbad : ∀ {fault}, frameFault p octets count mark = fault → fault ≠ .none → bad fault := fun hfault hne =>
      hacts.trans (congrArg Host.Outcome.next (endFrame_of_fault h hfault hne))
    refine ⟨fun hl => ?_, fun hl hc => ?_, fun hl hc hk => ?_, fun hl hc hk ha => ?_, fun hl hc hk ha => ?_⟩
    · exact hbad (frameFault_badLength hl) nofun
    · exact hbad (frameFault_badCheck hl hc) nofun
    · exact hbad (frameFault_badKind hl hc hk) nofun
    · exact hbad (frameFault_badAddress hl hc hk ha) nofun
    · exact hacts.trans (congrArg Host.Outcome.next (endFrame_of_good h (frameFault_none hl hc hk ha)))

/-! ### Sending (R144, R145, R157) -/

/-- R144: an IDLE transmitter with a telegram in a queue may transmit. -/
theorem mayTransmit_of_waiting {p : Port} {s : State} (hidle : (s.port p).transmitter = .idle)
    (hwaits : ¬ ((s.port p).urgent = [] ∧ (s.port p).routine = [])) : mayTransmit p s = true := by
  simpa [mayTransmit, hidle, imp_iff_not_or] using hwaits

/-- Settles O11: both arrivals act, and what they do is the choice of R157. -/
theorem transmitterChooses : Obligations.TransmitterChooses := by
  intro p s hr
  rw [← chooseNext_eq]
  exact ⟨fun hidle hwaits => arrival_acts hr (mayTransmit_of_waiting hidle hwaits),
    fun hseparating => arrival_acts hr (by simp only [isSeparating, hseparating])⟩

/-- R144: what the end of a transmission does before a pending restart begins. -/
def transmissionEnded (p : Port) (t : Telegram) (s : State) : State :=
  separate p (freeBuffer t.buffer (handCopyEnd t.tag (s.modPort p (fun q => { q with sent := counted q.sent }))))

section Sending

variable {p : Port} {s : State} {t : Telegram}

theorem transmissionComplete_acts (hr : isRestarting s = false) (h : (s.port p).transmitter = .sending t) :
    exec (.transmissionComplete p) s = .next (restartAfter t.tag (transmissionEnded p t s)) := by
  have hsending : sendingOf p s = some t := by simp only [sendingOf, h]
  change execTransmissionComplete p s = _
  rw [execTransmissionComplete, arrival_acts hr (Option.isSome_of_eq_some hsending), endTransmission, hsending]
  rfl

/-- The settings and the unit are those from before the end of the transmission. -/
theorem freed_sendsOnly (p : Port) (t : Telegram) (s : State) :
    SendsOnly s (freeBuffer t.buffer (handCopyEnd t.tag (s.modPort p (fun q => { q with sent := counted q.sent })))) :=
  (SendsOnly.of_lineOnly ((LineOnly.refl s).modPort p _)).trans ((SendsOnly.handCopyEnd _ _).trans (.freeBuffer _ _))

/-- R145: the separation is that of the settings from before the end of the transmission. -/
theorem transmissionEnded_eq (p : Port) (t : Telegram) (s : State) :
    transmissionEnded p t s =
      (freeBuffer t.buffer (handCopyEnd t.tag (s.modPort p (fun q => { q with sent := counted q.sent })))).modPort p
        (fun q => { q with transmitter := .separating, separation := .running (separationTime p s.settings) }) := by
  rw [transmissionEnded, separate, separationOf_eq_separationTime, (freed_sendsOnly p t s).settings]

theorem transmissionEnded_unit (p : Port) (t : Telegram) (s : State) : (transmissionEnded p t s).unit = s.unit :=
  (freed_sendsOnly p t s).unit

/-- R173: a pending restart begins as at its timer's expiry. -/
theorem resetTimerExpiry_acts {k : RestartKind} (h : s.unit = .resetPending k) :
    exec .resetTimerExpiry s = .next (beginPending s) := by
  change execResetTimerExpiry s = _
  rw [execResetTimerExpiry, arrival_acts (by simp only [isRestarting, h]) (by simp only [h])]

/-- R173: where no restart is pending, none begins. -/
theorem beginPending_of_none (h : ∀ k, s.unit ≠ .resetPending k) : beginPending s = s := by
  unfold beginPending
  split
  · rename_i k hk
    exact absurd hk (h k)
  · rfl

end Sending

/-- Settles O12: the actions of R144 in their order, then the restart that waits for the end of an ANSWER. -/
theorem transmissionCompletes : Obligations.TransmissionCompletes := by
  intro p s t hr h w after
  have hacts := transmissionComplete_acts hr h
  have hended : transmissionEnded p t s = after (handCopyEnd t.tag w) := transmissionEnded_eq p t s
  refine ⟨fun htag => ?_, fun a send htag => ?_, fun htag => ?_⟩
  · rw [hacts, hended, htag]
    rfl
  · rw [hacts, hended, htag]
    exact congrArg (fun v => Host.Outcome.next (after v)) (copyTransmitted_eq a send w)
  · have hunit : (after w).unit = s.unit := by
      have hplain := hended
      rw [htag] at hplain
      exact (congrArg State.unit hplain).symm.trans (transmissionEnded_unit p t s)
    rw [hacts, hended, htag]
    change Host.Outcome.next (beginPending (after w)) = _
    cases hu : s.unit with
    | resetPending k => exact (resetTimerExpiry_acts (hunit.trans hu)).symm
    | ready => exact congrArg _ (beginPending_of_none (by simp [hunit, hu]))
    | restarting c => exact congrArg _ (beginPending_of_none (by simp [hunit, hu]))

end Sys2Proof.Ports
end

section
/-! SUPPORT. Which operations leave the line side as it stands. -/

namespace Sys2Proof.Laws

open Sys2Proof Sys2Proof.Machine

theorem RecordsOnly.line {s t : State} (h : RecordsOnly s t) : t.line = s.line := (congrArg State.line h :)

theorem foldl_line {α : Type} {f : State → α → State} (hf : ∀ s x, (f s x).line = s.line) (l : List α) (s : State) :
    (l.foldl f s).line = s.line := by
  induction l generalizing s with
  | nil => rfl
  | cons x l ih => exact (ih _).trans (hf s x)

/-- The yard blocks leave the line side. -/
theorem Yard.line_eq {s t : State} (h : Yard s t) : t.line = s.line := by
  induction h with
  | trans _ _ ih ih' => rw [ih', ih]
  | full s r => exact (RecordsOnly.oweFull r s).line
  | reference s ref => exact (RecordsOnly.oweReference ref s).line
  | alarmEntry s key =>
    unfold Machine.oweAlarm
    split
    · rfl
    · split <;> rfl
  | outlet s h set =>
    unfold Machine.writeOutletSet
    split <;> rfl
  | _ => rfl

variable (s : State)

/-! ### Points and stations (R3, R8, R122) -/

theorem takeEntry_line (source : Nat) (e : RawEntry) : (takeEntry source s e).line = s.line := by
  unfold takeEntry
  split
  · rfl
  · split
    · rfl
    · exact (Yard.handUpdate _ (.refl _)).line_eq

theorem convertSample_line (source : Nat) (body : List Byte) : (convertSample source body s).line = s.line := by
  unfold convertSample
  split
  · exact foldl_line (fun s e => takeEntry_line s source e) _ s
  · rfl

theorem stalePoint_line (a n : Nat) : (stalePoint a s n).line = s.line := by
  unfold stalePoint
  split
  · rfl
  · split
    · exact (Yard.handUpdate _ (.refl _)).line_eq
    · rfl

theorem stalePoints_line (a : Nat) : (stalePoints a s).line = s.line := foldl_line (fun s n => stalePoint_line s a n) _ s

theorem hear_line (a : Nat) (b : Branch) : (hear a b s).line = s.line := by
  unfold hear
  split
  · unfold hearStation
    dsimp only
    split <;> split <;> simp [(RecordsOnly.raiseAlarm _ _).line, (RecordsOnly.clearAlarm _ _).line]
  · unfold hearStranger
    split <;> rfl

theorem goSilent_line (a : Nat) : (goSilent a s).line = s.line :=
  (stalePoints_line _ a).trans (RecordsOnly.raiseAlarm _ _).line

theorem interlockReply_line (a : Nat) (body : List Byte) : (interlockReply a body s).line = s.line := by
  unfold interlockReply
  split
  · rfl
  · exact (Yard.takeValveStates _ _ (.refl s)).line_eq

/-! ### The clock and the day books (R101 to R104, R113 to R116) -/

theorem closeOpenHour_line (clockSet : Bool) : (closeOpenHour clockSet s).line = s.line := by
  unfold closeOpenHour
  split
  · rfl
  · split
    · rfl
    · exact ((RecordsOnly.foldl (fun _ _ => .oweReference _ _) _ _).trans (.oweReference _ _)).line

theorem dayClose_line : (dayClose s).line = s.line := by
  unfold dayClose
  split
  · rfl
  · refine (RecordsOnly.oweReference _ _).line.trans ?_
    dsimp only [openBook]
    split
    · split
      · rfl
      · exact (RecordsOnly.raiseAlarm _ s).line
    · rfl

theorem takeHourDue_line : (takeHourDue s).line = s.line := by
  unfold takeHourDue
  split
  · rfl
  · unfold takeWholeHour
    split
    · rfl
    · dsimp only
      split_ifs
      · rfl
      · exact (dayClose_line _).trans (closeOpenHour_line _ _)
      · exact closeOpenHour_line _ _

theorem setForced_line (d m : Nat) : (setForced d m s).line = s.line := by
  refine Eq.trans ?_ (closeOpenHour_line s true)
  unfold setForced
  dsimp only
  generalize closeOpenHour true s = v
  split
  · rfl
  · split_ifs
    · rfl
    · exact dayClose_line _

theorem setUnforced_line (d m : Nat) : (setUnforced d m s).2.line = s.line := by
  unfold setUnforced
  extract_lets old new ahead behind
  rw [apply_ite Prod.snd, apply_ite Prod.snd, apply_ite Prod.snd]
  have hforward : ∀ n, (stepForward d m n s).line = s.line := fun _ => rfl
  have hbackward : ∀ n, (stepBackward d m n s).line = s.line := fun _ => rfl
  split_ifs
  · rfl
  · exact hforward ahead
  · exact hbackward behind
  · rfl

theorem firstSetting_line (d m : Nat) : (firstSetting d m s).line = s.line :=
  (Yard.flagClockSet (Yard.foldl (fun m h => Yard.addUnclocked m h) meterNumbers (.refl _))).line_eq

theorem setClockNow_line (d m : Nat) (force : Bool) : (setClockNow d m force s).2.line = s.line := by
  unfold setClockNow
  split_ifs
  · exact firstSetting_line s d m
  · exact setForced_line s d m
  · exact setUnforced_line s d m

theorem setClock_line (f : List Byte) : (setClock f s).state.line = s.line := by
  unfold setClock
  dsimp only
  split
  · rfl
  · simp only [setClockNow_line]

theorem advanceClock_line : (advanceClock s).line = s.line := by
  unfold advanceClock
  dsimp only
  split <;> rfl

/-! ### Requests -/

theorem storeStation_line (x : StationFields) : (storeStation x s).line = s.line := by
  unfold storeStation
  split <;> rfl

theorem removeStation_line (a : Nat) : (removeStation a s).line = s.line := by
  have hended := (Yard.endSequence a (Yard.clearOrders a (.refl s))).line_eq
  exact (RecordsOnly.clearAlarm (alarmKey .stationSilent a) _).line.trans hended

theorem handNone_line (n : Nat) (former : Option Point) : (handNone n former s).line = s.line := by
  cases former with
  | none => rfl
  | some p => exact (Yard.handUpdate _ (.refl s)).line_eq

theorem storePoint_line (f : List Byte) : (storePoint f s).line = s.line := by
  unfold storePoint
  split
  · exact handNone_line _ _ _
  · rfl

theorem setLocal_line (enable : Bool) (resolution period : Nat) : (setLocal enable resolution period s).line = s.line := by
  unfold setLocal
  dsimp only
  split
  · rfl
  · split
    · rfl
    · exact stalePoints_line _ _

theorem readRequest_line (f : List Byte) : (readRequest f s).state.line = s.line := by
  unfold readRequest
  dsimp only
  split
  · rfl
  · split
    · rfl
    · split <;> rfl

theorem acknowledge_line (key : AlarmKey) : (acknowledge key s).line = s.line := by
  unfold acknowledge
  split
  · rfl
  · split
    · exact ((RecordsOnly.dropAlarm _ _ s).trans (.settleAlarmOverflow _)).line
    · rfl

/-! ### Reports and restarts (R167, R174) -/

theorem retireHead_line (e : Entry) (rest : List Entry) : (retireHead e rest s).line = s.line := by
  unfold retireHead
  dsimp only
  split <;> rfl

theorem startLocal_line : (startLocal s).line = s.line := by
  unfold startLocal
  split <;> rfl

end Sys2Proof.Laws
end

section
/-! SUPPORT. Runs of the pool's operations: what stands in the queues and in hand at their ends, and that they keep the
count of buffers (R150, R152). -/

namespace Sys2Proof.Pool

open Sys2Proof Sys2Proof.Machine Sys2Proof.Laws

/-! ### Tallies -/

/-- The buffers of a list are all that are not free. -/
structure Tally (bs : List Buffer) (l : Line) : Prop where
  general : l.freeGeneral + bs.countP (fun b => b.cls == .general) = 88
  reserve : l.freeReserve + bs.countP (fun b => b.cls == .reserve) = 8
  charges : ∀ p, l.charge p = bs.countP (fun b => b.charge == some p)

section Tallies

variable {bs cs : List Buffer} {s t : State}

theorem conserved_iff_tally : BuffersConserved s ↔ Tally s.buffersInUse s.line :=
  ⟨fun ⟨hg, hr, hc⟩ => ⟨hg, hr, hc⟩, fun ⟨hg, hr, hc⟩ => ⟨hg, hr, hc⟩⟩

theorem tally_perm {l : Line} (h : bs.Perm cs) (k : Tally bs l) : Tally cs l :=
  ⟨h.countP_eq _ ▸ k.general, h.countP_eq _ ▸ k.reserve, fun p => h.countP_eq _ ▸ k.charges p⟩

/-- The counts that a tally reads. -/
theorem tally_congr {l m : Line} (hg : m.freeGeneral = l.freeGeneral) (hr : m.freeReserve = l.freeReserve)
    (hc : ∀ p, m.charge p = l.charge p) (k : Tally bs l) : Tally bs m :=
  ⟨hg ▸ k.general, hr ▸ k.reserve, fun p => hc p ▸ k.charges p⟩

/-- R152: a general buffer taken is in use, charged to its port. -/
theorem tally_takeGeneral {c : Option Port} {b : Buffer} (h : takeGeneral c s = some (b, t)) (k : Tally bs s.line) :
    Tally (b :: bs) t.line := by
  obtain ⟨rfl, hg, hr, hc⟩ := takeGeneral_counts h
  obtain ⟨kg, kr, kc⟩ := k
  refine ⟨?_, ?_, fun p => ?_⟩
  · simp only [List.countP_cons, beq_self_eq_true, if_true]
    omega
  · simpa [List.countP_cons, hr] using kr
  · simp [List.countP_cons, hc, kc]

/-- R151: a buffer taken for an URGENT telegram is in use, without a charge. -/
theorem tally_takeUrgent {b : Buffer} (h : takeUrgent s = some (b, t)) (k : Tally bs s.line) : Tally (b :: bs) t.line := by
  obtain ⟨hcharge, hc, ⟨hcls, hg, hr⟩ | ⟨hcls, hg, hg', hr⟩⟩ := takeUrgent_counts h <;> obtain ⟨kg, kr, kc⟩ := k
  · refine ⟨?_, ?_, fun p => ?_⟩
    · simp only [List.countP_cons, hcls, beq_self_eq_true, if_true]
      omega
    · simpa [List.countP_cons, hcls, hr] using kr
    · simpa [List.countP_cons, hcharge, hc] using kc p
  · refine ⟨?_, ?_, fun p => ?_⟩
    · simpa [List.countP_cons, hcls, hg, hg'] using kg
    · simp only [List.countP_cons, hcls, beq_self_eq_true, if_true]
      omega
    · simpa [List.countP_cons, hcharge, hc] using kc p

/-- R154: a buffer released is free. -/
theorem tally_releaseBuffer (b : Buffer) (k : Tally (b :: bs) s.line) : Tally bs (releaseBuffer b s).line := by
  obtain ⟨hg, hr, hc⟩ := releaseBuffer_counts b s
  obtain ⟨kg, kr, kc⟩ := k
  simp only [List.countP_cons, beq_iff_eq] at kg kr kc
  refine ⟨by omega, by omega, fun p => ?_⟩
  rw [hc, kc, Nat.add_sub_cancel]

end Tallies

/-- R66: the copies of a send take one buffer each. -/
theorem takeUrgentMany_length {n : Nat} {bs : List Buffer} {s t : State}
    (h : takeUrgentMany n s = some (bs, t)) : bs.length = n := by
  by_cases hfree : s.line.freeGeneral + s.line.freeReserve < n
  · rw [takeUrgentMany_none hfree] at h
    cases h
  · obtain ⟨cs, v, hv, hlength⟩ := takeUrgentMany_some (Nat.le_of_not_lt hfree)
    cases h.symm.trans hv
    exact hlength

/-! ### Buffers of telegrams that wait, and at the line -/

/-- The buffers in a port's egress queues (R156). -/
def queued (q : PortState) : List Buffer := (q.urgent ++ q.routine).map (·.buffer)

/-- The buffers of telegrams that wait: in reception for the Relay Unit, and in the egress queues. -/
def waiting (s : State) : List Buffer :=
  s.line.received.map (·.buffer) ++ queued s.line.portO ++ queued s.line.portN ++ queued s.line.portS

/-- The buffers at a port's line: of the frame being received and of the telegram being sent. -/
def atLine (q : PortState) : List Buffer :=
  (match q.receiver with
    | .receiving b _ _ _ => [b]
    | _ => [])
  ++ match q.transmitter with
    | .sending t => [t.buffer]
    | _ => []

/-- The buffers at the lines. -/
def atLines (s : State) : List Buffer := atLine s.line.portO ++ atLine s.line.portN ++ atLine s.line.portS

theorem portBuffers_perm (q : PortState) : q.buffers.Perm (queued q ++ atLine q) := by
  unfold PortState.buffers queued atLine
  rw [← List.append_assoc]
  exact List.perm_append_comm.append_right _

theorem inUse_perm (s : State) : s.buffersInUse.Perm (waiting s ++ atLines s) := by
  have hports := ((portBuffers_perm s.line.portO).append (portBuffers_perm s.line.portN)).append
    (portBuffers_perm s.line.portS)
  refine (?_ : s.buffersInUse.Perm _).trans ((hports.append_left (s.line.received.map (·.buffer))).trans ?_)
  · simp [State.buffersInUse]
  · refine List.perm_iff_count.mpr fun b => ?_
    simp only [waiting, atLines, List.count_append]
    omega

/-- A port changed: the buffers in use change as those of the port do. -/
theorem inUse_modPort {hs ks : List Buffer} {p : Port} {f : PortState → PortState} {s : State}
    (h : (ks ++ (f (s.port p)).buffers).Perm (hs ++ (s.port p).buffers)) :
    (ks ++ (s.modPort p f).buffersInUse).Perm (hs ++ s.buffersInUse) := by
  refine List.perm_iff_count.mpr fun b => ?_
  have hb := List.perm_iff_count.mp h b
  cases p <;> simp only [State.buffersInUse, State.modPort, State.port, Line.setPort, Line.port, List.count_append] at hb ⊢ <;>
    omega

theorem waiting_enqueue (p : Port) (urgent : Bool) (x : Telegram) (s : State) :
    (waiting (enqueue p urgent x s)).Perm (x.buffer :: waiting s) := by
  refine List.perm_iff_count.mpr fun b => ?_
  cases p <;> cases urgent <;>
    simp only [waiting, queued, enqueue, State.modPort, Line.setPort, Line.port, List.map_append, List.map_cons,
      List.map_nil, List.count_append, List.count_cons, List.count_nil, if_true, Bool.false_eq_true, if_false] <;> omega

/-! ### Runs -/

/-- A run of the pool's operations that begins with buffers hs in hand and ends with ks: whatever else is in use, the count
of buffers is kept, and no receiver or transmitter has changed. -/
structure PoolRun (hs ks : List Buffer) (s t : State) : Prop where
  receiver : ∀ p, (t.port p).receiver = (s.port p).receiver
  transmitter : ∀ p, (t.port p).transmitter = (s.port p).transmitter
  tally : ∀ bs, Tally (hs ++ (waiting s ++ bs)) s.line → Tally (ks ++ (waiting t ++ bs)) t.line

namespace PoolRun

variable {hs ks ms : List Buffer} {s t u : State}

theorem of_line (e : t.line = s.line) : PoolRun hs hs s t := by
  refine ⟨fun p => ?_, fun p => ?_, fun bs k => ?_⟩
  · rw [State.port, e, State.port]
  · rw [State.port, e, State.port]
  · rwa [e, waiting, e, ← waiting]

theorem refl (s : State) : PoolRun hs hs s s := of_line rfl

theorem trans (h : PoolRun hs ks s t) (k : PoolRun ks ms t u) : PoolRun hs ms s u :=
  ⟨fun p => (k.receiver p).trans (h.receiver p), fun p => (k.transmitter p).trans (h.transmitter p),
    fun bs x => k.tally bs (h.tally bs x)⟩

/-- A run, and a change that leaves the line side. -/
theorem andLine (h : PoolRun hs ks s t) (e : u.line = t.line) : PoolRun hs ks s u := h.trans (of_line e)

/-- Buffers that stay in hand over a run. -/
theorem beside (cs : List Buffer) (h : PoolRun hs ks s t) : PoolRun (cs ++ hs) (cs ++ ks) s t := by
  have hmove : ∀ xs ys bs : List Buffer, (cs ++ xs ++ (ys ++ bs)).Perm (xs ++ (ys ++ (cs ++ bs))) := fun xs ys bs =>
    List.perm_iff_count.mpr fun b => by
      simp only [List.count_append]
      omega
  exact ⟨h.receiver, h.transmitter, fun bs k =>
    tally_perm (hmove _ _ _).symm (h.tally (cs ++ bs) (tally_perm (hmove _ _ _) k))⟩

theorem besideRight (cs : List Buffer) (h : PoolRun hs ks s t) : PoolRun (hs ++ cs) (ks ++ cs) s t := by
  have hswap : ∀ xs bs : List Buffer, (cs ++ xs ++ bs).Perm (xs ++ cs ++ bs) := fun _ _ =>
    List.perm_append_comm.append_right _
  have hbeside := h.beside cs
  exact ⟨h.receiver, h.transmitter, fun bs k =>
    tally_perm (hswap _ _) (hbeside.tally bs (tally_perm (hswap _ _).symm k))⟩

/-- Buffers in hand over a run that neither begins nor ends with any. -/
theorem keep (cs : List Buffer) (h : PoolRun [] [] s t) : PoolRun cs cs s t := by simpa using h.beside cs

/-- An operation that changes the pool's counts alone. -/
theorem of_counts (hport : ∀ p, t.port p = s.port p) (hreceived : t.line.received = s.line.received)
    (htally : ∀ bs, Tally (hs ++ bs) s.line → Tally (ks ++ bs) t.line) : PoolRun hs ks s t := by
  have hwaiting : waiting t = waiting s := by
    have ho : t.line.portO = s.line.portO := hport .o
    have hn : t.line.portN = s.line.portN := hport .n
    have hsouth : t.line.portS = s.line.portS := hport .s
    rw [waiting, waiting, hreceived, ho, hn, hsouth]
  exact ⟨fun p => by rw [hport p], fun p => by rw [hport p], fun bs k => hwaiting ▸ htally _ k⟩

/-! ### Takings and freeings (R151, R152, R154) -/

theorem takeGeneral {c : Option Port} {b : Buffer} (h : Machine.takeGeneral c s = some (b, t)) : PoolRun [] [b] s t := by
  have htally := fun bs (k : Tally bs s.line) => tally_takeGeneral h k
  unfold Machine.takeGeneral at h
  split at h
  · simp only [Option.some.injEq, Prod.mk.injEq] at h
    obtain ⟨-, rfl⟩ := h
    rcases c with _ | _ | _ | _ <;> exact of_counts (fun p => by cases p <;> rfl) rfl htally
  · cases h

theorem takeUrgent {b : Buffer} (h : Machine.takeUrgent s = some (b, t)) : PoolRun [] [b] s t := by
  have htally := fun bs (k : Tally bs s.line) => tally_takeUrgent h k
  unfold Machine.takeUrgent at h
  split at h
  · rename_i hg
    cases h
    exact takeGeneral hg
  · split at h
    · simp only [Option.some.injEq, Prod.mk.injEq] at h
      obtain ⟨-, rfl⟩ := h
      exact of_counts (fun p => by cases p <;> rfl) rfl htally
    · cases h

theorem takeUrgentMany {n : Nat} {bs : List Buffer} (h : Machine.takeUrgentMany n s = some (bs, t)) :
    PoolRun [] bs s t := by
  induction n generalizing s bs with
  | zero =>
    cases h
    exact refl _
  | succ n ih =>
    unfold Machine.takeUrgentMany at h
    split at h
    · cases h
    · rename_i b v hv
      split at h
      · cases h
      · rename_i cs w hw
        cases h
        exact (takeUrgent hv).trans ((ih hw).beside [b])

theorem releaseBuffer (b : Buffer) (s : State) : PoolRun [b] [] s (releaseBuffer b s) := by
  have htally := fun bs (k : Tally (b :: bs) s.line) => tally_releaseBuffer b k
  obtain ⟨cls, charge⟩ := b
  cases cls <;> rcases charge with _ | _ | _ | _ <;> exact of_counts (fun p => by cases p <;> rfl) rfl htally

theorem enqueue (p : Port) (urgent : Bool) (b : Buffer) (octets : List Byte) (tag : Tag) (s : State) :
    PoolRun [b] [] s (enqueue p urgent ⟨b, octets, tag⟩ s) := by
  refine ⟨fun q => ?_, fun q => ?_, fun bs k => ?_⟩
  · cases p <;> cases urgent <;> cases q <;> rfl
  · cases p <;> cases urgent <;> cases q <;> rfl
  · have hcounts := tally_congr (m := (Machine.enqueue p urgent ⟨b, octets, tag⟩ s).line) (modPort_freeGeneral s p _)
      (modPort_freeReserve s p _) (fun q => modPort_charge s p q _) k
    exact tally_perm ((waiting_enqueue p urgent ⟨b, octets, tag⟩ s).symm.append_right bs) hcounts

/-- The figures of a port. -/
theorem figures (p : Port) {f : PortState → PortState}
    (hf : ∀ q, (f q).receiver = q.receiver ∧ (f q).transmitter = q.transmitter ∧ queued (f q) = queued q) (s : State) :
    PoolRun hs hs s (s.modPort p f) := by
  refine ⟨fun q => ?_, fun q => ?_, fun bs k => ?_⟩
  · rw [modPort_port]
    split
    · next hpq => rw [(hf _).1, hpq]
    · rfl
  · rw [modPort_port]
    split
    · next hpq => rw [(hf _).2.1, hpq]
    · rfl
  · have hwaiting : waiting (s.modPort p f) = waiting s := by
      cases p <;> simp only [waiting, State.modPort, Line.setPort, Line.port, (hf _).2.2]
    rw [hwaiting]
    exact tally_congr (modPort_freeGeneral s p f) (modPort_freeReserve s p f) (fun q => modPort_charge s p q f) k

/-! ### Holding (R158 to R161) -/

theorem setHolding (x : Holding) (d : Timer) (s : State) :
    PoolRun hs hs s { s with line := { s.line with holding := x, repeatTimer := d } } :=
  of_counts (fun p => by cases p <;> rfl) rfl
    (fun _ k => tally_congr (l := s.line) rfl rfl (fun p => by cases p <;> rfl) k)

theorem controlCopy (kind : Nat) (body : List Byte) (p : Port) (s : State) :
    PoolRun [] [] s (controlCopy kind body p s) := by
  unfold Machine.controlCopy
  split
  · exact refl s
  · rename_i hv
    exact (takeUrgent hv).trans (enqueue _ _ _ _ _ _)

theorem sendHold (s : State) : PoolRun [] [] s (sendHold s) :=
  ((controlCopy _ _ _ _).trans (controlCopy _ _ _ _)).trans (setHolding _ _ _)

theorem enterHolding (s : State) : PoolRun [] [] s (enterHolding s) :=
  (setHolding .holding s.line.repeatTimer s).trans (sendHold _)

theorem leaveHolding (s : State) : PoolRun [] [] s (leaveHolding s) := by
  have hleft := (setHolding (hs := []) .notHolding .stopped s).trans
    ((controlCopy kindGo [] .n _).trans (controlCopy kindGo [] .s _))
  unfold Machine.leaveHolding
  dsimp only
  split
  · exact hleft.trans (enterHolding _)
  · exact hleft

theorem holdingTest (s : State) : PoolRun [] [] s (holdingTest s) := by
  unfold Machine.holdingTest
  split <;> split
  · exact enterHolding s
  · exact refl s
  · exact leaveHolding s
  · exact refl s

/-! ### Sends of orders (R66, R67) -/

/-- R67: each copy's buffer is queued or given back. -/
theorem queueCopies (o : Order) (n : Nat) (l : List (Port × Buffer)) (s : State) :
    PoolRun (l.map (·.2)) (queueCopies o n l s).1 s (queueCopies o n l s).2 := by
  induction l generalizing s with
  | nil => exact refl s
  | cons x l ih =>
    obtain ⟨p, b⟩ := x
    unfold Machine.queueCopies
    split
    · refine PoolRun.trans ?_ (ih _)
      exact (enqueue p true b _ _ s).besideRight (l.map (·.2))
    · exact (ih s).beside [b]

theorem takeForSend {a : Nat} {e : Station} {o : Order} {bs : List Buffer}
    (h : Machine.takeForSend a s = some (e, o, bs, t)) :
    PoolRun [] bs s t ∧ bs.length = (copyPorts e.branch).length := by
  obtain ⟨he, ho, -⟩ := takeForSend_some h
  rw [takeForSend_of_waiting he ho] at h
  obtain ⟨⟨cs, v⟩, hv, hx⟩ := Option.map_eq_some_iff.mp h
  cases hx
  exact ⟨takeUrgentMany hv, takeUrgentMany_length hv⟩

theorem makeSend {e : Station} {bs : List Buffer} (o : Order) (hbs : bs.length = (copyPorts e.branch).length) (s : State) :
    PoolRun bs (makeSend e o bs s).1 s (makeSend e o bs s).2 := by
  have hqueued := queueCopies { o with sends := o.sends + 1 } s.serial ((copyPorts e.branch).zip bs) (nextSerial s)
  rw [List.map_snd_zip hbs.le] at hqueued
  have hserial : PoolRun bs bs s (nextSerial s) := of_line rfl
  exact hserial.trans (hqueued.andLine (u := (Machine.makeSend e o bs s).2) rfl)

/-! ### Reports (R167) -/

theorem takeForReport {c : ReportContent} {b : Buffer} (h : Machine.takeForReport c s = some (b, t)) :
    PoolRun [] [b] s t := by
  unfold Machine.takeForReport at h
  split at h
  · exact takeUrgent h
  · exact takeGeneral h

theorem sendPart {test : Bool} (h : Machine.sendPart test s = some t) : PoolRun [] [] s t := by
  unfold Machine.sendPart at h
  split at h
  · cases h
  · dsimp only at h
    split at h
    · cases h
      exact of_line (retireHead_line s _ _)
    · split at h
      · cases h
      · rename_i b v hv
        have htaken : PoolRun [] [b] s (if test = true then Machine.holdingTest v else v) := by
          split
          · exact (takeForReport hv).trans ((holdingTest v).keep [b])
          · exact takeForReport hv
        generalize (if test = true then Machine.holdingTest v else v) = w at htaken h
        generalize hq : Machine.enqueue _ _ _ w = q at h
        have hqueued : PoolRun [] [] s q := hq ▸ htaken.trans (enqueue _ _ _ _ _ _)
        split at h
        · cases h
          exact hqueued.andLine (retireHead_line _ _ _)
        · cases h
          exact hqueued.andLine rfl

theorem sendReports (test : Bool) (n : Nat) (s : State) : PoolRun [] [] s (sendReports test n s) := by
  induction n generalizing s with
  | zero => exact refl s
  | succ n ih =>
    unfold Machine.sendReports
    split
    · exact refl s
    · split
      · rename_i hv
        exact (sendPart hv).trans (ih _)
      · unfold claimForBacklog
        split
        · exact refl s
        · exact of_line rfl

/-! ### Claims and freeings (R153, R154) -/

theorem offerClaim {c : Claim} {bs : List Buffer} (h : Machine.offerClaim c s = some (bs, t)) : PoolRun [] bs s t := by
  cases c with
  | send a =>
    simp only [Machine.offerClaim] at h
    split at h
    · cases h
    · rename_i e o cs v hv
      obtain ⟨htaken, hlength⟩ := takeForSend hv
      have hwithdrawn : PoolRun [] cs s (withdrawClaim (.send a) v) := htaken.andLine rfl
      have hmade := hwithdrawn.trans (makeSend o hlength _)
      rwa [Option.some.inj h] at hmade
  | backlog =>
    simp only [Machine.offerClaim] at h
    split at h
    · cases h
    · rename_i v hv
      cases h
      have hwithdrawn : PoolRun [] [] s (withdrawClaim .backlog v) := (sendPart hv).andLine rfl
      exact hwithdrawn.trans (sendReports _ _ _)

theorem offerPass (l : List Claim) (s : State) : PoolRun [] (offerPass l s).1 s (offerPass l s).2 := by
  induction l generalizing s with
  | nil => exact refl s
  | cons c l ih =>
    unfold Machine.offerPass
    split
    · split
      · exact ih s
      · rename_i hv
        exact (offerClaim hv).trans (ih _)
      · rename_i hv
        exact offerClaim hv
    · exact ih s

/-- Buffers disposed of one after the other. -/
theorem foldl_buffers {f : State → Buffer → State} (hf : ∀ b s, PoolRun [b] [] s (f s b)) (bs : List Buffer) (s : State) :
    PoolRun bs [] s (bs.foldl f s) := by
  induction bs generalizing s with
  | nil => exact refl s
  | cons b bs ih => exact ((hf b s).besideRight bs).trans (ih _)

theorem freeing (n : Nat) (b : Buffer) (s : State) : PoolRun [b] [] s (freeing n b s) := by
  induction n generalizing b s with
  | zero => exact (releaseBuffer b s).trans (holdingTest _)
  | succ n ih =>
    have hoffered := (releaseBuffer b s).trans (offerPass (Machine.releaseBuffer b s).claims _)
    exact (hoffered.trans (foldl_buffers ih _ _)).trans (holdingTest _)

theorem freeBuffer (b : Buffer) (s : State) : PoolRun [b] [] s (freeBuffer b s) := freeing _ b s

theorem attemptSend (a : Nat) (s : State) : PoolRun [] [] s (attemptSend a s) := by
  have hserved : PoolRun [] [] s (serve a s) := of_line rfl
  unfold Machine.attemptSend
  dsimp only
  split
  · exact hserved.andLine rfl
  · rename_i e o bs v hv
    obtain ⟨htaken, hlength⟩ := takeForSend hv
    have htested := (hserved.trans htaken).trans ((holdingTest v).keep bs)
    exact (htested.trans (makeSend o hlength _)).trans (foldl_buffers freeBuffer _ _)

end PoolRun

end Sys2Proof.Pool
end

section
/-! SUPPORT. The Relay Unit, the requests and the Local Converter as runs of the pool's operations. -/

namespace Sys2Proof.Pool

open Sys2Proof Sys2Proof.Machine Sys2Proof.Laws

/-- The oldest telegram of a port and the others are those in reception. -/
theorem firstOfPort_perm {p : Port} {l rest : List Received} {r : Received} (h : firstOfPort p l = some (r, rest)) :
    l.Perm (r :: rest) := by
  induction l generalizing rest with
  | nil => cases h
  | cons x l ih =>
    unfold firstOfPort at h
    split at h
    · cases h
      exact .refl _
    · obtain ⟨⟨y, tail⟩, hy, hx⟩ := Option.map_eq_some_iff.mp h
      cases hx
      exact ((ih hy).cons x).trans (.swap _ _ _)

namespace PoolRun

variable {s t : State}

/-! ### Telegrams in reception (R133, R141) -/

/-- The list of telegrams in reception written. -/
theorem setReceived {hs ks : List Buffer} {l : List Received}
    (h : (hs ++ s.line.received.map (·.buffer)).Perm (ks ++ l.map (·.buffer))) :
    PoolRun hs ks s { s with line := { s.line with received := l } } := by
  refine ⟨fun p => by cases p <;> rfl, fun p => by cases p <;> rfl, fun bs k => ?_⟩
  refine tally_congr (l := s.line) rfl rfl (fun p => by cases p <;> rfl) (tally_perm ?_ k)
  simpa only [waiting, List.append_assoc] using
    h.append_right (queued s.line.portO ++ (queued s.line.portN ++ (queued s.line.portS ++ bs)))

theorem takeReceived {p : Port} {r : Received} (h : Machine.takeReceived p s = some (r, t)) :
    PoolRun [] [r.buffer] s t := by
  obtain ⟨⟨x, rest⟩, hx, he⟩ := Option.map_eq_some_iff.mp h
  cases he
  have hperm : (s.line.received.map (·.buffer)).Perm ((x :: rest).map (·.buffer)) := (firstOfPort_perm hx).map _
  exact setReceived hperm

/-! ### SAMPLE and REPLY (R133) -/

theorem forwardField (r : Received) (b : Branch) (urgent : Bool) (x : Option (List Byte)) (s : State) :
    PoolRun [r.buffer] [] s (forwardField r b urgent x s) := by
  unfold Machine.forwardField
  split
  · exact freeBuffer _ s
  · split
    · split
      · exact freeBuffer _ s
      · exact enqueue _ _ _ _ _ s
    · exact freeBuffer _ s

theorem passSample (r : Received) (b : Branch) (s : State) : PoolRun [r.buffer] [] s (passSample r b s) :=
  (of_line ((convertSample_line _ _ _).trans (hear_line s _ b))).trans (forwardField _ _ _ _ _)

theorem passReply (r : Received) (b : Branch) (s : State) : PoolRun [r.buffer] [] s (passReply r b s) := by
  have hheard := (interlockReply_line _ (sourceOf r.octets) (bodyOf r.octets)).trans (hear_line s (sourceOf r.octets) b)
  unfold Machine.passReply
  dsimp only
  split
  · exact (of_line hheard).trans (forwardField _ _ _ _ _)
  · rename_i o _
    have hcompleted := (Yard.completeOrder (sourceOf r.octets) o (bodyOf r.octets) (.refl _)).line_eq.trans hheard
    refine PoolRun.trans (of_line hcompleted) ?_
    split
    · unfold forwardCompletion
      split
      · exact enqueue _ _ _ _ _ _
      · exact freeBuffer _ _
    · exact freeBuffer _ _

theorem passField {pass : Received → Branch → State → State} (p : Port)
    (hp : ∀ r b s, PoolRun [r.buffer] [] s (pass r b s)) (s : State) : PoolRun [] [] s (passField p pass s) := by
  unfold Machine.passField
  split
  · rename_i hr
    exact (takeReceived hr).trans (hp _ _ _)
  · exact refl s

/-! ### The office's telegrams (R135, R136, R169) -/

theorem drainOne (h : Machine.drainOne s = some t) : PoolRun [] [] s t := by
  unfold Machine.drainOne at h
  split at h
  · cases h
  · rename_i hr
    have htaken := takeReceived hr
    split at h
    · split at h
      · cases h
        exact htaken.trans (freeBuffer _ _)
      · split at h
        · cases h
        · cases h
          exact htaken.trans (enqueue _ _ _ _ _ _)
    · cases h

theorem drainOffice (n : Nat) (s : State) : PoolRun [] [] s (drainOffice n s) := by
  induction n generalizing s with
  | zero => exact refl s
  | succ n ih =>
    unfold Machine.drainOffice
    split
    · exact refl s
    · rename_i hv
      exact (drainOne hv).trans (ih _)

theorem drain (s : State) : PoolRun [] [] s (drain s) := drainOffice _ s

theorem furtherCopy (r : Received) (s : State) : PoolRun [] [] s (furtherCopy r s) := by
  unfold Machine.furtherCopy
  split
  · exact figures .o (fun _ => by exact ⟨rfl, rfl, rfl⟩) s
  · rename_i b v hv
    exact ((takeGeneral hv).trans ((holdingTest v).keep [b])).trans (enqueue _ _ _ _ _ _)

theorem forwardBoth (r : Received) (s : State) : PoolRun [r.buffer] [] s (forwardBoth r s) := by
  unfold Machine.forwardBoth
  split
  · exact (enqueue .n true r.buffer r.octets .plain s).trans (furtherCopy r _)
  · exact enqueue .n true r.buffer r.octets .plain s
  · exact enqueue .s true r.buffer r.octets .plain s
  · exact freeBuffer _ s

theorem refuseCommand (r : Received) (a : Nat) (x : RefusalReason) (s : State) :
    PoolRun [r.buffer] [] s (refuseCommand r a x s) := (freeBuffer r.buffer s).andLine (RecordsOnly.oweFull _ _).line

theorem dispatchCommand (r : Received) (a : Nat) (s : State) : PoolRun [r.buffer] [] s (dispatchCommand r a s) := by
  unfold Machine.dispatchCommand
  split
  · split
    · have hplaced : PoolRun [r.buffer] [r.buffer] s (placeOffice a (bodyOf r.octets) s) := of_line rfl
      exact hplaced.trans (freeBuffer _ _)
    · exact refuseCommand _ _ _ s
  · split
    · unfold forwardOne
      split
      · exact enqueue _ _ _ _ _ s
      · exact freeBuffer _ s
    · exact forwardBoth r s

theorem passCommand (r : Received) (s : State) : PoolRun [r.buffer] [] s (passCommand r s) := by
  unfold Machine.passCommand
  dsimp only
  split
  · exact freeBuffer _ s
  · split
    · exact forwardBoth r s
    · split
      · exact refuseCommand _ _ _ s
      · exact dispatchCommand _ _ s

theorem passOffice (s : State) : PoolRun [] [] s (passOffice s) := by
  unfold Machine.passOffice
  split
  · exact refl s
  · rename_i hr
    exact ((takeReceived hr).trans (passCommand _ _)).trans (drain _)

/-! ### The Local Converter (R14, R15) -/

theorem finishScan (codes : List Nat) (s : State) : PoolRun [] [] s (finishScan codes s) := by
  have hconverted : PoolRun [] [] s (convertSample ownAddress (bodyOf (localSample s.localConverter codes))
      { s with localConverter := { s.localConverter with scanning := false } }) := of_line (convertSample_line _ _ _)
  unfold Machine.finishScan
  dsimp only
  split
  · exact hconverted
  · refine hconverted.trans ?_
    unfold queueLocal
    split
    · exact refl _
    · rename_i b v hv
      exact ((takeGeneral hv).trans ((holdingTest v).keep [b])).trans (enqueue _ _ _ _ _ _)

/-! ### Requests (R169) -/

/-- What a judged request does to the line side is what its action does. -/
theorem judge (checks : List (Bool × ResultCode)) {act : State → State} (h : PoolRun [] [] s (act s)) :
    PoolRun [] [] s (judge checks act s).state := by
  unfold Machine.judge
  split
  · exact refl s
  · exact h

theorem answerRequest (code : Nat) {perform : List Byte → State → Performed}
    (hp : ∀ f s, PoolRun [] [] s (perform f s).state) (s : State) : PoolRun [] [] s (answerRequest code perform s) := by
  unfold Machine.answerRequest
  split
  · exact refl s
  · rename_i r v hr
    exact (((takeReceived hr).trans ((hp _ v).keep [r.buffer])).trans (enqueue _ _ _ _ _ _)).trans (drain _)

theorem loadSettings (f : List Byte) (s : State) : PoolRun [] [] s (loadSettings f s).state := by
  refine judge _ ?_
  split
  · exact refl s
  · rename_i x _
    have hstored : PoolRun [] [] s { s with settings := x } := of_line rfl
    exact hstored.trans (holdingTest _)

end PoolRun

end Sys2Proof.Pool
end

section
/-! SUPPORT. The statement about what every step keeps of the buffers' counts: what happens at the lines, and the commands
as runs of the pool's operations. -/

namespace Sys2Proof.Pool

open Sys2Proof Sys2Proof.Machine Sys2Proof.Laws

variable {s t : State}

/-! ### Runs and the buffers in use -/

theorem atLines_congr (hr : ∀ p, (t.port p).receiver = (s.port p).receiver)
    (ht : ∀ p, (t.port p).transmitter = (s.port p).transmitter) : atLines t = atLines s := by
  have hport : ∀ p, atLine (t.port p) = atLine (s.port p) := fun p => by
    rw [atLine, hr p, ht p, ← atLine]
  exact congrArg₂ (· ++ ·) (congrArg₂ (· ++ ·) (hport .o) (hport .n)) (hport .s)

/-- A run keeps the count of the buffers in use and in hand. -/
theorem PoolRun.inUse {hs ks : List Buffer} (h : PoolRun hs ks s t) (k : Tally (hs ++ s.buffersInUse) s.line) :
    Tally (ks ++ t.buffersInUse) t.line := by
  have hstart := tally_perm ((inUse_perm s).append_left hs) k
  have hend := h.tally _ hstart
  rw [← atLines_congr h.receiver h.transmitter] at hend
  exact tally_perm ((inUse_perm t).symm.append_left ks) hend

theorem conserved_of_run (h : PoolRun [] [] s t) (k : BuffersConserved s) : BuffersConserved t :=
  conserved_iff_tally.mpr (h.inUse (conserved_iff_tally.mp k))

/-- A port changed: the counts are kept when the buffers that leave it are in hand, and those that join it were. -/
theorem tally_modPort {hs ks : List Buffer} {p : Port} {f : PortState → PortState}
    (h : (ks ++ (f (s.port p)).buffers).Perm (hs ++ (s.port p).buffers)) (k : Tally (hs ++ s.buffersInUse) s.line) :
    Tally (ks ++ (s.modPort p f).buffersInUse) (s.modPort p f).line :=
  tally_congr (modPort_freeGeneral s p f) (modPort_freeReserve s p f) (fun q => modPort_charge s p q f)
    (tally_perm (inUse_modPort h).symm k)

theorem conserved_modPort {p : Port} {f : PortState → PortState}
    (h : (f (s.port p)).buffers.Perm (s.port p).buffers) (k : BuffersConserved s) : BuffersConserved (s.modPort p f) :=
  conserved_iff_tally.mpr (tally_modPort (hs := []) (ks := []) h (conserved_iff_tally.mp k))

/-! ### Receiving (R140, R141) -/

theorem conserved_startReception {p : Port} (o : Byte) (faulty : Bool) (hidle : receiverIdle p s = true)
    (k : BuffersConserved s) : BuffersConserved (startReception p o faulty s) := by
  have hreceiver : (s.port p).receiver = .idle := by
    unfold receiverIdle at hidle
    split at hidle
    · assumption
    · cases hidle
  unfold startReception
  split
  · rename_i b v hv
    have htaken := PoolRun.takeGeneral hv
    have hstays : (v.port p).receiver = .idle := (htaken.receiver p).trans hreceiver
    refine conserved_of_run (.holdingTest _) (conserved_iff_tally.mpr ?_)
    refine tally_modPort (ks := []) (hs := [b]) ?_ (htaken.inUse (conserved_iff_tally.mp k))
    simp [PortState.buffers, hstays]
  · refine conserved_modPort ?_ k
    simp [PortState.buffers, hreceiver]

theorem conserved_takeOctet (p : Port) (o : Byte) (faulty : Bool) (k : BuffersConserved s) :
    BuffersConserved (takeOctet p o faulty s) := by
  unfold takeOctet
  split
  · exact k
  · rename_i hr
    exact conserved_modPort (by simp [PortState.buffers, hr]) k
  · rename_i hr
    exact conserved_modPort (by simp [PortState.buffers, hr]) k

/-- R141: a good telegram stands in reception in the buffer of its frame. -/
theorem PoolRun.goodTelegram (p : Port) (b : Buffer) (octets : List Byte) (s : State) :
    PoolRun [b] [] s (goodTelegram p b octets s) := by
  have hcounted := figures (hs := [b]) p (f := fun q => { q with good := countUp q.good }) (fun _ => ⟨rfl, rfl, rfl⟩) s
  unfold Machine.goodTelegram
  dsimp only
  generalize s.modPort p (fun q => { q with good := countUp q.good }) = v at hcounted
  have hstands : PoolRun [b] [] s { v with line := { v.line with received := v.line.received ++ [⟨p, b, octets⟩] } } :=
    hcounted.trans (setReceived (by simpa using (List.perm_append_singleton b _).symm))
  split
  · exact hstands.trans (drain _)
  · exact hstands

theorem conserved_endFrame (p : Port) (k : BuffersConserved s) : BuffersConserved (endFrame p s) := by
  unfold endFrame
  split
  · exact k
  · rename_i b octets count mark hr
    have hidle : Tally ([b] ++ (idleReceiver p s).buffersInUse) (idleReceiver p s).line :=
      tally_modPort (hs := []) (by simp [PortState.buffers, hr]) (conserved_iff_tally.mp k)
    have hrun : ∀ {u}, PoolRun [b] [] (idleReceiver p s) u → BuffersConserved u := fun h =>
      conserved_iff_tally.mpr (h.inUse hidle)
    dsimp only
    split
    · exact hrun (.goodTelegram p b octets _)
    · exact hrun ((PoolRun.figures p (fun _ => by exact ⟨rfl, rfl, rfl⟩) _).trans (.freeBuffer b _))
  · rename_i mark hr
    have hidle : BuffersConserved (idleReceiver p s) := conserved_modPort (by simp [PortState.buffers, hr]) k
    refine conserved_of_run (.figures p (fun q => ?_) _) hidle
    split <;> exact ⟨rfl, rfl, rfl⟩

/-! ### Sending (R144, R145, R157) -/

/-- R157: a telegram chosen leaves its queue for the transmitter, which held none. -/
theorem choose_buffers_perm (ratio : Ratio) {q : PortState} (h : ∀ x, q.transmitter ≠ .sending x) :
    (q.choose ratio).buffers.Perm q.buffers := by
  have hurgent : ∀ x rest n, q.urgent = x :: rest → (q.sendUrgent x rest n).buffers.Perm q.buffers := fun x rest n hx =>
    List.perm_iff_count.mpr fun b => by
      simp only [PortState.buffers, PortState.sendUrgent, hx, List.cons_append, List.map_cons, List.count_append,
        List.count_cons, List.count_nil]
      omega
  have hroutine : ∀ x rest, q.routine = x :: rest → (q.sendRoutine x rest).buffers.Perm q.buffers := fun x rest hx =>
    List.perm_iff_count.mpr fun b => by
      simp only [PortState.buffers, PortState.sendRoutine, hx, List.map_append, List.map_cons, List.count_append,
        List.count_cons, List.count_nil]
      omega
  unfold PortState.choose
  split
  · simp [PortState.buffers]
  · exact hroutine _ _ ‹_›
  · exact hurgent _ _ _ ‹_›
  · split
    · exact hurgent _ _ _ ‹_›
    · split
      · exact hurgent _ _ _ ‹_›
      · exact hroutine _ _ ‹_›

theorem conserved_chooseNext {p : Port} (h : ∀ x, (s.port p).transmitter ≠ .sending x) (k : BuffersConserved s) :
    BuffersConserved (chooseNext p s) := conserved_modPort (choose_buffers_perm _ h) k

theorem not_sending_of_mayTransmit {p : Port} (h : mayTransmit p s = true) (x : Telegram) :
    (s.port p).transmitter ≠ .sending x := by
  intro hx
  simp [mayTransmit, hx] at h

theorem not_sending_of_isSeparating {p : Port} (h : isSeparating p s = true) (x : Telegram) :
    (s.port p).transmitter ≠ .sending x := by
  intro hx
  simp [isSeparating, hx] at h

theorem atLines_separate {p : Port} {x : Telegram} (hx : (s.port p).transmitter = .sending x) :
    (atLines s).Perm (x.buffer :: atLines (separate p s)) := by
  refine List.perm_iff_count.mpr fun b => ?_
  cases p <;> simp only [State.port, Line.port] at hx <;>
    simp only [atLines, atLine, separate, State.modPort, Line.setPort, Line.port, hx, List.count_append, List.count_cons,
      List.count_nil] <;> omega

/-- R144: the telegram sent leaves the transmitter, and what its freeing does is not the transmitter's. -/
theorem conserved_separate {p : Port} {x : Telegram} (hx : (s.port p).transmitter = .sending x)
    (h : PoolRun [x.buffer] [] s t) (k : BuffersConserved s) : BuffersConserved (separate p t) := by
  have hlines : atLines (separate p t) = atLines (separate p s) := by
    refine atLines_congr (fun q => ?_) (fun q => ?_) <;> simp only [separate, modPort_port] <;> split
    · exact h.receiver p
    · exact h.receiver q
    · rfl
    · exact h.transmitter q
  have hstart : Tally ([x.buffer] ++ (waiting s ++ atLines (separate p s))) s.line := by
    refine tally_perm ((inUse_perm s).trans ?_) (conserved_iff_tally.mp k)
    exact ((atLines_separate hx).append_left _).trans List.perm_middle
  have hwaiting : waiting (separate p t) = waiting t := by cases p <;> rfl
  refine conserved_iff_tally.mpr (tally_perm (inUse_perm _).symm ?_)
  rw [hwaiting, hlines]
  exact tally_congr (modPort_freeGeneral t p _) (modPort_freeReserve t p _) (fun q => modPort_charge t p q _)
    (h.tally _ hstart)

theorem conserved_beginRestart (cause : RestartCause) (s : State) : BuffersConserved (beginRestart cause s) := by
  have hfree : ∀ {u : State}, u.buffersInUse = [] → u.line.freeGeneral = 88 → u.line.freeReserve = 8 →
      (∀ p, u.line.charge p = 0) → BuffersConserved u := fun hu hg hr hc =>
    ⟨by rw [hu, hg]; rfl, by rw [hu, hr]; rfl, fun p => by rw [hu, hc]; rfl⟩
  cases cause <;> exact hfree rfl rfl rfl (fun p => by cases p <;> rfl)

theorem conserved_beginPending (k : BuffersConserved s) : BuffersConserved (beginPending s) := by
  unfold beginPending
  split
  · exact conserved_beginRestart _ s
  · exact k

theorem conserved_endTransmission (p : Port) (k : BuffersConserved s) : BuffersConserved (endTransmission p s) := by
  unfold endTransmission
  split
  · exact k
  · rename_i x hx
    have hsending : (s.port p).transmitter = .sending x := by
      unfold sendingOf at hx
      split at hx <;> cases hx
      assumption
    have hcounted : PoolRun [x.buffer] [x.buffer] s (s.modPort p (fun q => { q with sent := countUp q.sent })) :=
      .figures p (fun _ => by exact ⟨rfl, rfl, rfl⟩) s
    have hhanded := hcounted.andLine (u := handCopyEnd x.tag _) (by cases x.tag <;> rfl)
    have hsent := conserved_separate hsending (hhanded.trans (.freeBuffer x.buffer _)) k
    unfold restartAfter
    dsimp only
    split
    · exact conserved_beginPending hsent
    · exact hsent

/-! ### Restarts (R174) -/

theorem conserved_startPorts (k : BuffersConserved s) : BuffersConserved (startPorts s) := by
  refine ⟨k.general, k.reserve, fun p => ?_⟩
  cases p with
  | o => exact k.charges .o
  | n => exact k.charges .n
  | s => exact k.charges .s

theorem conserved_completeRestart (k : BuffersConserved s) : BuffersConserved (completeRestart s) := by
  unfold completeRestart
  split
  · refine conserved_of_run (.of_line ?_) (conserved_startPorts k)
    have hresumed := fun u => (Yard.foldl (fun n h => Directory.resumeClosure_yard n h) holderNumbers (.refl u)).line_eq
    exact (hresumed _).trans (startLocal_line _)
  · exact k

/-! ### Commands -/

theorem conserved_arrival {arises : State → Bool} {act : State → State} (h : arrival arises act s = .next t)
    (k : BuffersConserved s) (hact : arises s = true → BuffersConserved (act s)) : BuffersConserved t := by
  obtain rfl | ⟨-, ha, rfl⟩ := arrival_cases h
  · exact k
  · exact hact ha

/-- An arrival whose action is a run of the pool's operations. -/
theorem conserved_arrival_of_run {arises : State → Bool} {act : State → State} (h : arrival arises act s = .next t)
    (hact : PoolRun [] [] s (act s)) (k : BuffersConserved s) : BuffersConserved t :=
  conserved_arrival h k (fun _ => conserved_of_run hact k)

/-- An arrival whose action leaves the line side. -/
theorem conserved_arrival_of_line {arises : State → Bool} {act : State → State} (h : arrival arises act s = .next t)
    (hact : (act s).line = s.line) (k : BuffersConserved s) : BuffersConserved t :=
  conserved_arrival_of_run h (.of_line hact) k

theorem conserved_request {code : Nat} {perform : List Byte → State → Performed} (h : request code perform s = .next t)
    (hp : ∀ f s, PoolRun [] [] s (perform f s).state) (k : BuffersConserved s) : BuffersConserved t :=
  conserved_arrival_of_run h (.answerRequest code hp s) k

theorem conserved_exec {c : Instr} (h : exec c s = .next t) (k : BuffersConserved s) : BuffersConserved t := by
  cases c with
  | powerOn =>
    cases h
    exact conserved_beginRestart .power s
  | restartComplete =>
    cases h
    split
    · exact conserved_completeRestart k
    · exact k
  | resetTimerExpiry =>
    exact conserved_arrival (show execResetTimerExpiry s = _ from h) k (fun _ => conserved_beginPending k)
  | receptionStart p o b =>
    exact conserved_arrival (show execReceptionStart p o b s = _ from h) k
      (fun hidle => conserved_startReception o b hidle k)
  | octetArrives p o b =>
    exact conserved_arrival (show execOctetArrives p o b s = _ from h) k (fun _ => conserved_takeOctet p o b k)
  | frameEnd p => exact conserved_arrival (show execFrameEnd p s = _ from h) k (fun _ => conserved_endFrame p k)
  | transmitStart p =>
    exact conserved_arrival (show execTransmitStart p s = _ from h) k
      (fun hmay => conserved_chooseNext (not_sending_of_mayTransmit hmay) k)
  | separationExpiry p =>
    exact conserved_arrival (show execSeparationExpiry p s = _ from h) k
      (fun hseparating => conserved_chooseNext (not_sending_of_isSeparating hseparating) k)
  | transmissionComplete p =>
    exact conserved_arrival (show execTransmissionComplete p s = _ from h) k (fun _ => conserved_endTransmission p k)
  | repeatTimerExpiry =>
    exact conserved_arrival_of_run (show execRepeatTimerExpiry s = _ from h) ((PoolRun.sendHold s).trans (.holdingTest _)) k
  | sample p => exact conserved_arrival_of_run h (.passField p .passSample s) k
  | reply p => exact conserved_arrival_of_run h (.passField p .passReply s) k
  | officeCommand => exact conserved_arrival_of_run h (.passOffice s) k
  | orderSend a => exact conserved_arrival_of_run h (.attemptSend a s) k
  | reportSend => exact conserved_arrival_of_run (show execReportSend s = _ from h) (.sendReports _ _ s) k
  | scanComplete c0 c1 c2 c3 => exact conserved_arrival_of_run h (.finishScan _ s) k
  | replyTimerExpiry a => exact conserved_arrival_of_line h (Yard.replyTimerExpired a (.refl s)).line_eq k
  | stepTimerExpiry d =>
    exact conserved_arrival_of_line (show execStepTimerExpiry d s = _ from h) (Yard.stepBoundary d (.refl s)).line_eq k
  | fogTimerExpiry d =>
    exact conserved_arrival_of_line (show execFogTimerExpiry d s = _ from h) (Yard.setFog 0 0 d (.refl s)).line_eq k
  | waitingTimerExpiry a =>
    exact conserved_arrival_of_line (show execWaitingTimerExpiry a s = _ from h) (goSilent_line s a) k
  | agingTimerExpiry a => exact conserved_arrival_of_line (show execAgingTimerExpiry a s = _ from h) (by rfl) k
  | settleTimerExpiry => exact conserved_arrival_of_line (show execSettleTimerExpiry s = _ from h) (by rfl) k
  | scanTimerExpiry => exact conserved_arrival_of_line (show execScanTimerExpiry s = _ from h) (by rfl) k
  | wholeHour => exact conserved_arrival_of_line (show execWholeHour s = _ from h) (takeHourDue_line s) k
  | clockSecond =>
    cases h
    split
    · exact conserved_of_run (.of_line (advanceClock_line s)) k
    · exact k
  | loadSettings => exact conserved_request h .loadSettings k
  | loadStation => exact conserved_request h (fun _ s => .judge _ (.of_line (storeStation_line s _))) k
  | dropStation => exact conserved_request h (fun _ s => .judge _ (.of_line (removeStation_line s _))) k
  | loadPoint => exact conserved_request h (fun f s => .judge _ (.of_line (storePoint_line s f))) k
  | dropPoint => exact conserved_request h (fun _ _ => .judge _ (.of_line (handNone_line _ _ _))) k
  | loadVapour => exact conserved_request h (fun _ _ => .judge _ (.of_line (by rfl))) k
  | loadLocal => exact conserved_request h (fun _ s => .judge _ (.of_line (setLocal_line s _ _ _))) k
  | loadHolder => exact conserved_request h (fun f s => .judge _ (.of_line (Yard.storeHolder f (.refl s)).line_eq)) k
  | loadLift => exact conserved_request h (fun _ s => .judge _ (.of_line (Yard.storeLift _ _ _ (.refl s)).line_eq)) k
  | holderService => exact conserved_request h (fun _ s => .judge _ (.of_line (Yard.setService _ _ (.refl s)).line_eq)) k
  | loadDistrict => exact conserved_request h (fun f s => .judge _ (.of_line (Yard.storeDistrict f (.refl s)).line_eq)) k
  | loadProfile => exact conserved_request h (fun _ s => .judge _ (.of_line (Yard.storeProfile _ _ (.refl s)).line_eq)) k
  | stepNow => exact conserved_request h (fun _ s => .judge _ (.of_line (Yard.stepBoundary _ (.refl s)).line_eq)) k
  | districtMode => exact conserved_request h (fun _ s => .judge _ (.of_line (Yard.changeMode _ _ (.refl s)).line_eq)) k
  | fog =>
    exact conserved_request h
      (fun _ s => .judge _ (.of_line (Yard.foldl (fun d h => Yard.setFog _ _ d h) _ (.refl s)).line_eq)) k
  | loadMeter => exact conserved_request h (fun f s => .judge _ (.of_line (Yard.storeMeter f (.refl s)).line_eq)) k
  | setClock => exact conserved_request h (fun f s => .of_line (setClock_line s f)) k
  | collectDay => exact conserved_request h (fun _ _ => .judge _ (.of_line (RecordsOnly.clearAlarm _ _).line)) k
  | read => exact conserved_request h (fun f s => .of_line (readRequest_line s f)) k
  | ackAlarm => exact conserved_request h (fun _ s => .judge _ (.of_line (acknowledge_line s _))) k
  | reset => exact conserved_request h (fun _ _ => .judge _ (.of_line (by rfl))) k

/-- Settles O54: every command is a run of the pool's operations, a change of what stands at a line, or a restart, which
frees every buffer. -/
theorem buffersStayConserved : Obligations.BuffersStayConserved := by
  intro s t h k
  unfold step at h
  split at h
  · cases h
    exact k
  · exact conserved_exec h ⟨k.general, k.reserve, k.charges⟩

end Sys2Proof.Pool
end

section
/-! SUPPORT. The statement about freeing, offering and holding: the statements' words of the pool, each tied to the model's
operation of the same meaning, and when a claim is met. -/

namespace Sys2Proof.Pool

open Sys2Proof Sys2Proof.Machine Sys2Proof.Claims Sys2Proof.Laws

/-! ### Words: queues and holding (R156, R158 to R161) -/

theorem enqueue_eq (p : Port) (urgent : Bool) (t : Telegram) (s : State) :
    enqueue p urgent t s = s.modPort p (fun q =>
      { q with
        urgent := if urgent then q.urgent ++ [t] else q.urgent
        routine := if urgent then q.routine else q.routine ++ [t] }) := by
  cases urgent <;> rfl

/-- R151: a copy takes a general buffer, otherwise a reserve one, otherwise it is not sent. -/
theorem controlCopy_eq_copySent (kind : Nat) (body : List Byte) (p : Port) (s : State) :
    controlCopy kind body p s = copySent kind body p s := by
  unfold controlCopy copySent takeUrgent takeGeneral mayTakeGeneral
  by_cases hgeneral : 0 < s.line.freeGeneral
  · simp only [hgeneral, decide_true, Bool.and_true, if_true]
  · by_cases hreserve : 0 < s.line.freeReserve
    · simp only [hgeneral, hreserve, decide_false, Bool.false_and, Bool.false_eq_true, if_false, if_true]
    · simp only [hgeneral, hreserve, decide_false, Bool.false_and, Bool.false_eq_true, if_false]

theorem sendHold_eq_holdSent (s : State) : sendHold s = holdSent s := by
  simp only [sendHold, holdSent, controlCopy_eq_copySent]

theorem enterHolding_eq_holdEntered (s : State) : enterHolding s = holdEntered s := sendHold_eq_holdSent _

theorem holdingTest_outside {s : State} (h : s.line.holding = .notHolding) :
    holdingTest s = if s.line.freeGeneral ≤ s.settings.holdMark then holdEntered s else s := by
  simp only [holdingTest, h, enterHolding_eq_holdEntered]

/-- R161: HOLDING is left at the go mark, with a GO on each branch and the test after their takings. -/
theorem holdingTest_inside {s : State} (h : s.line.holding = .holding) :
    let t := copySent 8 [] .s (copySent 8 [] .n
      { s with line := { s.line with holding := .notHolding, repeatTimer := .stopped } })
    holdingTest s =
      if s.line.freeGeneral < s.settings.goMark then s
      else if t.line.freeGeneral ≤ t.settings.holdMark then holdEntered t
      else t := by
  intro t
  have hleft : leaveHolding s = if t.line.freeGeneral ≤ t.settings.holdMark then holdEntered t else t := by
    simp only [leaveHolding, controlCopy_eq_copySent, enterHolding_eq_holdEntered]
    rfl
  simp only [holdingTest, h, hleft, ← Nat.not_lt, ite_not]

theorem repeatTimerExpiry_acts {s : State} {d : Nat} (hr : isRestarting s = false) (hholding : s.line.holding = .holding)
    (htimer : s.line.repeatTimer = .running d) : exec .repeatTimerExpiry s = .next (holdingTest (holdSent s)) := by
  change execRepeatTimerExpiry s = _
  rw [execRepeatTimerExpiry, arrival_acts hr (by simp [hholding, htimer, Timer.runs]), sendHold_eq_holdSent]

/-! ### Words: freeings (R153, R154) -/

theorem offerPass_eq_offeredOnce (l : List Claim) (s : State) : offerPass l s = offeredOnce l s := by
  induction l generalizing s with
  | nil => rfl
  | cons c l ih =>
    simp only [offerPass, offeredOnce, List.contains_iff_mem]
    split
    · cases hoffer : offerClaim c s with
      | none => exact ih s
      | some x =>
        obtain ⟨_ | ⟨b, bs⟩, t⟩ := x
        · exact ih t
        · rfl
    · exact ih s

theorem freeing_eq_freed (n : Nat) (b : Buffer) (s : State) : freeing n b s = freed n b s := by
  induction n generalizing b s with
  | zero => rfl
  | succ n ih =>
    have hfold : (fun s b => freeing n b s) = (fun s b => freed n b s) := funext fun s => funext fun b => ih b s
    have hreleased : releaseBuffer b s = released b s := rfl
    simp only [freeing, freed, hfold, hreleased, offerPass_eq_offeredOnce]

/-- R154: with no claim a freeing offers the buffer to none. -/
theorem freeBuffer_of_no_claims (b : Buffer) {s : State} (h : s.claims = []) :
    freeBuffer b s = holdingTest (released b s) := by
  have hclaims : (releaseBuffer b s).claims = [] := h
  simp only [freeBuffer, h, List.length_nil, freeing, hclaims, offerPass, List.foldl_nil]
  rfl

/-! ### A send's claim (R66, R153) -/

section SendClaim

variable {a : Nat} {s t : State} {e : Station} {o : Order}

theorem copyPorts_length (e : Station) : (copyPorts e.branch).length = copiesNeeded e := by
  unfold copyPorts copiesNeeded
  cases e.branch <;> rfl

theorem takeUrgentMany_none_iff {n : Nat} :
    takeUrgentMany n s = none ↔ s.line.freeGeneral + s.line.freeReserve < n := by
  refine ⟨fun h => ?_, takeUrgentMany_none⟩
  by_contra hfree
  obtain ⟨bs, v, hv, -⟩ := takeUrgentMany_some (Nat.le_of_not_lt hfree)
  rw [h] at hv
  cases hv

theorem takeUrgentMany_free {n : Nat} {bs : List Buffer} (h : takeUrgentMany n s = some (bs, t)) :
    s.line.freeGeneral + s.line.freeReserve = t.line.freeGeneral + t.line.freeReserve + n := by
  induction n generalizing s bs with
  | zero =>
    cases h
    rfl
  | succ n ih =>
    unfold takeUrgentMany at h
    split at h
    · cases h
    · rename_i b v hv
      split at h
      · cases h
      · rename_i hw
        cases h
        have hfirst := takeUrgent_free hv
        have hrest := ih hw
        omega

/-- R153: a waiting send's claim is met by the taking of its copies' buffers. -/
theorem offerClaim_send (he : s.station a = some e) (ho : e.slot = .bufferWait o) :
    offerClaim (.send a) s = (takeUrgentMany (copiesNeeded e) s).map
      (fun x => makeSend e o x.1 (withdrawClaim (.send a) x.2)) := by
  have hwaits : waitingOrder e = some o := by simp only [waitingOrder, ho]
  simp only [offerClaim, takeForSend_of_waiting he hwaits, copyPorts_length]
  cases takeUrgentMany (copiesNeeded e) s <;> rfl

theorem offerClaim_send_none (he : s.station a = some e) (ho : e.slot = .bufferWait o) :
    offerClaim (.send a) s = none ↔ s.line.freeGeneral + s.line.freeReserve < copiesNeeded e := by
  rw [offerClaim_send he ho, Option.map_eq_none_iff, takeUrgentMany_none_iff]

/-- R67: the copies queued take no buffer. -/
theorem queueCopies_free (n : Nat) (l : List (Port × Buffer)) (s : State) :
    (queueCopies o n l s).2.line.freeGeneral = s.line.freeGeneral ∧
      (queueCopies o n l s).2.line.freeReserve = s.line.freeReserve := by
  induction l generalizing s with
  | nil => exact ⟨rfl, rfl⟩
  | cons x l ih =>
    obtain ⟨p, b⟩ := x
    unfold queueCopies
    split
    · obtain ⟨hg, hr⟩ := ih (enqueue p true ⟨b, frame o.station o.source kindCommand o.body, .orderCopy o.station n⟩ s)
      exact ⟨hg.trans (modPort_freeGeneral s p _), hr.trans (modPort_freeReserve s p _)⟩
    · exact ih s

theorem makeSend_free (bs : List Buffer) (s : State) :
    (makeSend e o bs s).2.line.freeGeneral = s.line.freeGeneral ∧
      (makeSend e o bs s).2.line.freeReserve = s.line.freeReserve :=
  queueCopies_free (o := { o with sends := o.sends + 1 }) s.serial _ (nextSerial s)

theorem makeSend_claims (bs : List Buffer) (s : State) : (makeSend e o bs s).2.claims = s.claims :=
  (congrArg State.claims (LineOnly.queueCopies { o with sends := o.sends + 1 } s.serial
    ((copyPorts e.branch).zip bs) (.refl (nextSerial s))) :)

/-- R67: what a send makes of its slot, told by the buffers it gives back. -/
theorem makeSend_slot {bs : List Buffer} (he : s.station a = some e) (hbs : bs.length = copiesNeeded e) :
    let given := (makeSend e o bs s).1
    ((makeSend e o bs s).2.station a).map (·.slot) = some
      (if given.length = copiesNeeded e then .awaitingReply { o with sends := o.sends + 1 } e.replyTime
       else .onLine { o with sends := o.sends + 1 } s.serial (copiesNeeded e - given.length)) := by
  intro given
  have hports : bs.length = (copyPorts e.branch).length := hbs.trans (copyPorts_length e).symm
  have hqueued : bs.length - given.length = ((copyPorts e.branch).filter (copyEnabled o · s)).length :=
    queueCopies_queued { o with sends := o.sends + 1 } s.serial hports (nextSerial s)
  have hgiven : given.length ≤ bs.length := by
    have hfilter := queueCopies_given { o with sends := o.sends + 1 } s.serial ((copyPorts e.branch).zip bs) (nextSerial s)
    have hlength := congrArg List.length hfilter
    rw [List.length_map] at hlength
    refine (hlength.trans_le (List.length_filter_le _ _)).trans ?_
    rw [List.length_zip]
    exact Nat.min_le_right _ _
  rw [makeSend_station o he hports, ← hqueued, hbs]
  rw [hbs] at hgiven
  simp only [Option.map_some, Nat.sub_eq_zero_iff_le, hgiven.ge_iff_eq]

theorem offerClaim_send_met (he : s.station a = some e) (ho : e.slot = .bufferWait o) {given : List Buffer}
    (h : offerClaim (.send a) s = some (given, t)) :
    Claim.send a ∉ t.claims ∧
      t.line.freeGeneral + t.line.freeReserve + copiesNeeded e = s.line.freeGeneral + s.line.freeReserve ∧
      (t.station a).map (·.slot) = some
        (if given.length = copiesNeeded e then .awaitingReply { o with sends := o.sends + 1 } e.replyTime
         else .onLine { o with sends := o.sends + 1 } s.serial (copiesNeeded e - given.length)) := by
  rw [offerClaim_send he ho] at h
  obtain ⟨⟨bs, v⟩, hv, hmade⟩ := Option.map_eq_some_iff.mp h
  have hline : LineOnly s v := .takeUrgentMany hv (.refl s)
  have hstation : (withdrawClaim (.send a) v).station a = some e := (hline.station a).trans he
  have hslot := makeSend_slot (o := o) hstation (takeUrgentMany_length hv)
  have hserial : (withdrawClaim (.send a) v).serial = s.serial := hline.serial
  obtain ⟨hg, hr⟩ := makeSend_free (e := e) (o := o) bs (withdrawClaim (.send a) v)
  have hclaims := makeSend_claims (e := e) (o := o) bs (withdrawClaim (.send a) v)
  rw [hserial] at hslot
  rw [hmade] at hslot hg hr hclaims
  refine ⟨?_, ?_, hslot⟩
  · rw [hclaims]
    simp [withdrawClaim]
  · rw [hg, hr]
    exact (takeUrgentMany_free hv).symm

end SendClaim

/-! ### The backlog's claim (R153, R167) -/

/-- R156, R168: what a report's kind says of its part's buffer, and that every report has a part. -/
theorem reportContent_urgent_parts (s : State) (f : EntryForm) :
    (reportContent s f).urgent = (reportOf s f).urgent ∧ (reportContent s f).parts ≠ [] := by
  cases f with
  | full r => cases r <;> exact ⟨rfl, List.cons_ne_nil _ _⟩
  | reference ref =>
    cases ref with
    | hour book gasDay n part =>
      simp only [reportContent, reportOf]
      split
      · exact ⟨rfl, List.cons_ne_nil _ _⟩
      · split
        · exact ⟨rfl, List.cons_ne_nil _ _⟩
        · split <;> exact ⟨rfl, List.cons_ne_nil _ _⟩
    | _ =>
      simp only [reportContent, reportOf]
      split <;> exact ⟨rfl, List.cons_ne_nil _ _⟩

/-- R151, R167: a report's part finds no buffer exactly where its class has none free. -/
theorem takeForReport_none_iff {c : ReportContent} {s : State} :
    takeForReport c s = none ↔ s.line.freeGeneral = 0 ∧ (c.urgent = true → s.line.freeReserve = 0) := by
  unfold takeForReport
  split
  · next hurgent => simp [takeUrgent_none_iff, hurgent]
  · next hroutine => simp [takeGeneral_none, mayTakeGeneral, hroutine]

/-- R167: the head entry's next part is not sent exactly where it finds no buffer. -/
theorem sendPart_none_iff {test : Bool} {s : State} {e : Entry} {rest : List Entry} (hb : s.backlog = e :: rest)
    (hremains : e.held.elim (reportContent s e.form).parts (·.remaining) ≠ []) :
    sendPart test s = none ↔ takeForReport (reportContent s e.form) s = none := by
  have hheld : (e.held.getD ⟨(reportContent s e.form).parts.length, (reportContent s e.form).parts⟩).remaining ≠ [] := by
    cases hh : e.held <;> simpa [hh] using hremains
  unfold sendPart
  simp only [hb]
  split
  · exact absurd ‹_› hheld
  · cases takeForReport (reportContent s e.form) s with
    | none => simp
    | some x =>
      obtain ⟨b, v⟩ := x
      dsimp only
      split <;> simp

theorem offerClaim_backlog_none {s : State} {e : Entry} {rest : List Entry} (hb : s.backlog = e :: rest)
    (hremains : e.held.elim (reportOf s e.form).parts (·.remaining) ≠ []) :
    offerClaim .backlog s = none ↔
      s.line.freeGeneral = 0 ∧ ((reportOf s e.form).urgent = true → s.line.freeReserve = 0) := by
  obtain ⟨hurgent, hparts⟩ := reportContent_urgent_parts s e.form
  have hnext : e.held.elim (reportContent s e.form).parts (·.remaining) ≠ [] := by
    cases hh : e.held with
    | none => exact hparts
    | some x => simpa [hh] using hremains
  have hoffer : offerClaim .backlog s = none ↔ sendPart false s = none := by
    simp only [offerClaim]
    cases sendPart false s <;> simp
  rw [hoffer, sendPart_none_iff hb hnext, takeForReport_none_iff, hurgent]

/-- Settles O13: each of the statement's words is the model's operation, and a claim is met exactly where its buffers can be
taken. -/
theorem poolFreesAndHolds : Obligations.PoolFreesAndHolds :=
  ⟨enqueue_eq, fun b _ => freeBuffer_of_no_claims b, fun b s => freeing_eq_freed _ b s,
    fun _ _ _ _ he ho => ⟨offerClaim_send_none he ho, fun _ _ => offerClaim_send_met he ho⟩,
    fun _ _ _ hb => offerClaim_backlog_none hb, fun _ => holdingTest_outside, fun _ => holdingTest_inside,
    fun _ _ => repeatTimerExpiry_acts⟩

end Sys2Proof.Pool
end

section
/-! SUPPORT. What the primitive changes leave of the Alarm List and the Report Backlog. -/

namespace Sys2Proof.Records

open Sys2Proof Sys2Proof.Machine Sys2Proof.Claims Sys2Proof.Laws

/-! ### Records referred to, and records whose report is owed -/

/-- The records that entries of the backlog refer to. -/
def references (s : State) : List RecordRef := s.backlog.filterMap Entry.record?

/-- The alarm records whose report-owed flag is set. -/
def owedKeys (s : State) : List AlarmKey := (s.alarms.filter (·.reportOwed)).map (·.key)

theorem record?_eq_some_iff {e : Entry} {ref : RecordRef} : e.record? = some ref ↔ e.form = .reference ref := by
  unfold Entry.record?
  split <;> simp_all

theorem mem_references_iff {ref : RecordRef} {s : State} :
    ref ∈ references s ↔ .reference ref ∈ s.backlog.map (·.form) := by
  simp [references, record?_eq_some_iff]

theorem referenced_iff {ref : RecordRef} {s : State} : referenced ref s = true ↔ ref ∈ references s := by
  simp [referenced, mem_references_iff]

theorem mem_owedKeys_iff {key : AlarmKey} {s : State} :
    key ∈ owedKeys s ↔ ∃ r ∈ s.alarms, r.reportOwed = true ∧ r.key = key := by
  simp [owedKeys, and_assoc]

/-- R166: outside a restart the alarm records referred to are those whose report is owed. -/
theorem owed_iff {s : State} : (∀ key, referenced (.alarm key) s = s.alarms.any (fun r => r.key == key && r.reportOwed)) ↔
    ∀ key, .alarm key ∈ references s ↔ key ∈ owedKeys s := by
  refine forall_congr' fun key => ?_
  rw [← referenced_iff, mem_owedKeys_iff, Bool.eq_iff_iff]
  simp [and_comm]

theorem owed_of_consistent {s : State} (h : RecordsConsistent s) (hr : isRestarting s = false) (key : AlarmKey) :
    .alarm key ∈ references s ↔ key ∈ owedKeys s := owed_iff.mp (h.owed hr) key

/-! ### Changes that keep the records consistent -/

/-- The Alarm List and the Report Backlog stand as before, and so does whether the unit is RESTARTING. -/
structure RecordsKept (s t : State) : Prop where
  restarting : isRestarting t = isRestarting s
  alarms : t.alarms = s.alarms
  backlog : t.backlog = s.backlog

section Consistent

variable {s t : State}

theorem consistent_of_kept (h : RecordsConsistent s) (k : RecordsKept s t) : RecordsConsistent t := by
  obtain ⟨hrestarting, halarms, hbacklog⟩ := k
  exact ⟨halarms ▸ h.alarmsFit, halarms ▸ h.alarmsDistinct, halarms ▸ h.counts, hbacklog ▸ h.backlogFits,
    hbacklog ▸ h.oneReference, by simpa only [hrestarting, referenced, halarms, hbacklog] using h.owed,
    hbacklog ▸ h.partsFit⟩

/-- Alarm records may change in other fields than their keys and report-owed flags, within the range of their counts. -/
theorem consistent_alarmFields {f : Alarm → Alarm} (hkey : ∀ r, (f r).key = r.key)
    (howed : ∀ r, (f r).reportOwed = r.reportOwed)
    (hcount : ∀ r, 1 ≤ r.count → r.count ≤ 255 → 1 ≤ (f r).count ∧ (f r).count ≤ 255) (h : RecordsConsistent s) :
    RecordsConsistent { s with alarms := s.alarms.map f } where
  alarmsFit := by simpa using h.alarmsFit
  alarmsDistinct := by
    rw [Yard.keys_map hkey]
    exact h.alarmsDistinct
  counts := by
    simp only [List.forall_mem_map]
    exact fun r hr => hcount r (h.counts r hr).1 (h.counts r hr).2
  backlogFits := h.backlogFits
  oneReference := h.oneReference
  owed := fun hr key => by
    have hflags : s.alarms.any ((fun r => r.key == key && r.reportOwed) ∘ f) =
        s.alarms.any (fun r => r.key == key && r.reportOwed) := by
      congr 1
      funext r
      simp only [Function.comp_apply, hkey, howed]
    rw [List.any_map, hflags]
    exact h.owed hr key
  partsFit := h.partsFit

/-- R166: an entry joins the tail, referring to no alarm record and to no record that another refers to. -/
theorem consistent_entryJoins {f : EntryForm} (hroom : s.backlog.length < 64)
    (hnew : ∀ ref, f = .reference ref → ref ∉ references s) (halarm : ∀ key, f ≠ .reference (.alarm key))
    (h : RecordsConsistent s) : RecordsConsistent { s with backlog := s.backlog ++ [⟨f, none⟩] } where
  alarmsFit := h.alarmsFit
  alarmsDistinct := h.alarmsDistinct
  counts := h.counts
  backlogFits := by simpa using hroom
  oneReference := by
    rw [List.filterMap_append]
    refine List.nodup_append_comm.mp ?_
    cases f with
    | full r => exact h.oneReference
    | reference ref => exact List.nodup_cons.mpr ⟨hnew ref rfl, h.oneReference⟩
  owed := fun hr key => by
    have hother : (f == .reference (.alarm key)) = false := beq_false_of_ne (halarm key)
    rw [← h.owed hr key]
    simp [referenced, hother]
  partsFit := by
    simp only [List.forall_mem_append]
    exact ⟨h.partsFit, by simp⟩

theorem consistent_addEntry {f : EntryForm} (hnew : ∀ ref, f = .reference ref → ref ∉ references s)
    (halarm : ∀ key, f ≠ .reference (.alarm key)) (h : RecordsConsistent s) : RecordsConsistent (addEntry f s) := by
  unfold addEntry
  split
  · next hroom => exact consistent_entryJoins hroom hnew halarm h
  · exact consistent_of_kept h ⟨rfl, rfl, rfl⟩

theorem consistent_oweFull (r : FullReport) (h : RecordsConsistent s) : RecordsConsistent (oweFull r s) :=
  consistent_addEntry nofun nofun h

theorem consistent_oweReference {ref : RecordRef} (halarm : ∀ key, ref ≠ .alarm key) (h : RecordsConsistent s) :
    RecordsConsistent (oweReference ref s) := by
  unfold oweReference
  split
  · exact h
  · next hnew =>
    refine consistent_addEntry (fun q hq => ?_) (fun key hq => halarm key (EntryForm.reference.inj hq)) h
    cases hq
    exact mt referenced_iff.mpr hnew

/-- R166: an alarm record whose report-owed flag is written, if it is the record of the key. -/
def withOwed (key : AlarmKey) (b : Bool) (r : Alarm) : Alarm := if r.key == key then { r with reportOwed := b } else r

theorem withOwed_key (key : AlarmKey) (b : Bool) (r : Alarm) : (withOwed key b r).key = r.key := by
  unfold withOwed
  split <;> rfl

theorem withOwed_count (key : AlarmKey) (b : Bool) (r : Alarm) : (withOwed key b r).count = r.count := by
  unfold withOwed
  split <;> rfl

theorem withOwed_reportOwed (key : AlarmKey) (b : Bool) (r : Alarm) :
    (withOwed key b r).reportOwed = if r.key = key then b else r.reportOwed := by
  unfold withOwed
  split <;> simp_all

theorem mem_owedKeys_withOwed {key k : AlarmKey} {b : Bool} (ht : t.alarms = s.alarms.map (withOwed key b)) :
    k ∈ owedKeys t ↔ if k = key then b = true ∧ key ∈ s.alarms.map (·.key) else k ∈ owedKeys s := by
  simp only [mem_owedKeys_iff, ht, List.mem_map, exists_exists_and_eq_and, withOwed_key, withOwed_reportOwed]
  split_ifs with hk
  · subst hk
    constructor
    · rintro ⟨r, hr, howed, rfl⟩
      exact ⟨by simpa using howed, r, hr, rfl⟩
    · rintro ⟨rfl, r, hr, rfl⟩
      exact ⟨r, hr, by simp, rfl⟩
  · refine exists_congr fun r => and_congr_right fun _ => and_congr_left fun hr => ?_
    rw [if_neg (hr ▸ hk)]

/-- R166, R167: a record's report-owed flag is written with the entry that refers to it: the invariant stands when the
backlog keeps its own part, and refers to the record when its flag is set. -/
theorem consistent_withOwed {key : AlarmKey} {b : Bool} (h : RecordsConsistent s)
    (hunit : isRestarting t = isRestarting s) (ht : t.alarms = s.alarms.map (withOwed key b))
    (hfits : t.backlog.length ≤ 64) (hone : (references t).Nodup)
    (hparts : ∀ e ∈ t.backlog, ∀ held, e.held = some held → held.remaining.length ≤ 3)
    (hsame : ∀ k, k ≠ key → (.alarm k ∈ references t ↔ .alarm k ∈ references s))
    (hkey : .alarm key ∈ references t ↔ b = true ∧ key ∈ s.alarms.map (·.key)) :
    RecordsConsistent t where
  alarmsFit := by simpa [ht] using h.alarmsFit
  alarmsDistinct := by
    rw [ht, Yard.keys_map (withOwed_key key b)]
    exact h.alarmsDistinct
  counts := by
    simp only [ht, List.forall_mem_map, withOwed_count]
    exact h.counts
  backlogFits := hfits
  oneReference := hone
  owed := fun hr => owed_iff.mpr fun k => by
    rw [mem_owedKeys_withOwed ht]
    split_ifs with hk
    · rw [hk, hkey]
    · rw [hsame k hk, owed_of_consistent h (hunit ▸ hr)]
  partsFit := hparts

/-- R166: an entry refers to an alarm record that is held, and its report-owed flag is set. -/
theorem consistent_oweAlarm {key : AlarmKey} (hheld : key ∈ s.alarms.map (·.key)) (h : RecordsConsistent s) :
    RecordsConsistent (oweAlarm key s) := by
  unfold oweAlarm
  split_ifs with hreferenced hroom
  · exact h
  · have hnew : .alarm key ∉ references s := mt referenced_iff.mpr hreferenced
    have hparts : ∀ e ∈ s.backlog ++ [⟨.reference (.alarm key), none⟩], ∀ held, e.held = some held →
        held.remaining.length ≤ 3 := by
      simp only [List.forall_mem_append]
      exact ⟨h.partsFit, by simp⟩
    refine consistent_withOwed h rfl rfl (by simpa using hroom) ?_ hparts (fun k hk => ?_) ?_
    · rw [references, List.filterMap_append]
      exact List.nodup_append_comm.mp (List.nodup_cons.mpr ⟨hnew, h.oneReference⟩)
    · simp [mem_references_iff, hk]
    · simp only [mem_references_iff, List.map_append, List.mem_append]
      exact ⟨fun _ => ⟨trivial, hheld⟩, fun _ => .inr (.head _)⟩
  · exact consistent_of_kept h ⟨rfl, rfl, rfl⟩

/-- R167: the head entry leaves, and an alarm record that it refers to owes no report. -/
theorem consistent_retireHead {e : Entry} {rest : List Entry} (hb : s.backlog = e :: rest) (h : RecordsConsistent s) :
    RecordsConsistent (retireHead e rest s) := by
  have hfits : rest.length ≤ 64 := by
    have := h.backlogFits
    simp only [hb, List.length_cons] at this
    omega
  have hparts : ∀ q ∈ rest, ∀ held, q.held = some held → held.remaining.length ≤ 3 :=
    fun q hq => h.partsFit q (hb ▸ List.mem_cons_of_mem e hq)
  have hone : (rest.filterMap Entry.record?).Nodup :=
    h.oneReference.sublist (hb ▸ (List.sublist_cons_self e rest).filterMap _)
  unfold retireHead
  dsimp only
  split
  · next key hform =>
    have hrecord : e.record? = some (.alarm key) := record?_eq_some_iff.mpr hform
    have hreferences : references s = .alarm key :: rest.filterMap Entry.record? := by
      rw [references, hb, List.filterMap_cons_some hrecord]
    have hgone : .alarm key ∉ rest.filterMap Entry.record? :=
      (List.nodup_cons.mp (hreferences ▸ h.oneReference)).1
    refine consistent_withOwed (b := false) h rfl rfl hfits hone hparts (fun k hk => ?_) ?_
    · rw [hreferences]
      simp [references, hk]
    · exact ⟨fun hmem => absurd hmem hgone, nofun⟩
  · next hform =>
    refine ⟨h.alarmsFit, h.alarmsDistinct, h.counts, hfits, hone, fun hr key => ?_, hparts⟩
    have hother : (e.form == .reference (.alarm key)) = false := beq_false_of_ne (hform key)
    have howed := h.owed hr key
    rw [← howed]
    simp [referenced, hb, hother]

/-- R167: the head entry holds what remains of its report. -/
theorem consistent_held {e : Entry} {rest : List Entry} {x : HeldReport} (hb : s.backlog = e :: rest)
    (hx : (∀ y, e.held = some y → y.remaining.length ≤ 3) → x.remaining.length ≤ 3) (h : RecordsConsistent s) :
    RecordsConsistent { s with backlog := { e with held := some x } :: rest } where
  alarmsFit := h.alarmsFit
  alarmsDistinct := h.alarmsDistinct
  counts := h.counts
  backlogFits := by simpa [hb] using h.backlogFits
  oneReference := by
    have hone := h.oneReference
    rw [hb] at hone
    exact hone
  owed := fun hr key => by
    rw [← h.owed hr key]
    simp [referenced, hb]
  partsFit := by
    have hparts := h.partsFit
    simp only [hb, List.forall_mem_cons] at hparts ⊢
    exact ⟨fun y hy => Option.some.inj hy ▸ hx hparts.1, hparts.2⟩

theorem references_removeAlarm (r : Alarm) (s : State) :
    references (removeAlarm r s) = (references s).filter (· != .alarm r.key) := by
  simp only [references, removeAlarm, List.filterMap_map, List.filter_filterMap]
  refine List.filterMap_congr fun e _ => ?_
  obtain ⟨form, held⟩ := e
  cases form with
  | full x => simp [Entry.record?]
  | reference ref =>
    by_cases href : ref = .alarm r.key <;> simp [Entry.record?, Option.filter, href]

theorem mem_owedKeys_removeAlarm {r : Alarm} {key : AlarmKey} :
    key ∈ owedKeys (removeAlarm r s) ↔ key ∈ owedKeys s ∧ key ≠ r.key := by
  simp only [mem_owedKeys_iff, removeAlarm, List.mem_filter, bne_iff_ne]
  constructor
  · rintro ⟨q, ⟨hq, hne⟩, howed, rfl⟩
    exact ⟨⟨q, hq, howed, rfl⟩, hne⟩
  · rintro ⟨⟨q, hq, howed, rfl⟩, hne⟩
    exact ⟨q, ⟨hq, hne⟩, howed, rfl⟩

/-- R166: an alarm record leaves the list, and an entry that refers to it turns full. -/
theorem consistent_removeAlarm (r : Alarm) (h : RecordsConsistent s) : RecordsConsistent (removeAlarm r s) where
  alarmsFit := (List.length_filter_le _ _).trans h.alarmsFit
  alarmsDistinct := h.alarmsDistinct.sublist (List.filter_sublist.map _)
  counts := fun q hq => h.counts q (List.mem_of_mem_filter hq)
  backlogFits := by simpa [removeAlarm] using h.backlogFits
  oneReference := by
    have hone : (references (removeAlarm r s)).Nodup := references_removeAlarm r s ▸ h.oneReference.filter _
    exact hone
  owed := fun hr => owed_iff.mpr fun key => by
    simp only [references_removeAlarm, List.mem_filter, mem_owedKeys_removeAlarm, owed_of_consistent h hr]
    simp
  partsFit := by
    simp only [removeAlarm, List.forall_mem_map]
    intro e he
    split <;> exact h.partsFit e he

/-- R163: a record joins the list, with no report owed. -/
theorem consistent_appendAlarm {key : AlarmKey} (hnew : findAlarm key s = none) (hroom : s.alarms.length < 32)
    (h : RecordsConsistent s) : RecordsConsistent (appendAlarm key s) where
  alarmsFit := by simpa [appendAlarm] using hroom
  alarmsDistinct := by
    have habsent : key ∉ s.alarms.map (·.key) := by simpa [findAlarm] using hnew
    simp only [appendAlarm, List.map_append]
    exact List.nodup_append_comm.mp (List.nodup_cons.mpr ⟨habsent, h.alarmsDistinct⟩)
  counts := by
    simp only [appendAlarm, List.forall_mem_append]
    exact ⟨h.counts, by simp⟩
  backlogFits := h.backlogFits
  oneReference := h.oneReference
  owed := fun hr k => by
    have howed := h.owed hr k
    simpa [appendAlarm, referenced] using howed
  partsFit := h.partsFit

/-- R163: the record evicted makes room for the new one. -/
theorem consistent_evict {r : Alarm} {key : AlarmKey} (hr : r ∈ s.alarms) (hnew : findAlarm key s = none)
    (h : RecordsConsistent s) : RecordsConsistent (appendAlarm key (removeAlarm r s)) := by
  refine consistent_appendAlarm ?_ ?_ (consistent_removeAlarm r h)
  · rw [findAlarm, List.find?_eq_none] at hnew ⊢
    exact fun q hq => hnew q (List.mem_of_mem_filter hq)
  · have hfewer : (s.alarms.filter (fun q => q.key != r.key)).length < s.alarms.length :=
      List.length_filter_lt_length_iff_exists.mpr ⟨r, hr, by simp⟩
    exact hfewer.trans_le h.alarmsFit

end Consistent

/-! ### Runs of primitive changes -/

section Runs

variable {s t : State}

theorem consistent_yard (k : Yard s t) (h : RecordsConsistent s) : RecordsConsistent t := by
  induction k with
  | trans _ _ ih ih' => exact ih' (ih h)
  | full s r => exact consistent_oweFull r h
  | reference s ref halarm => exact consistent_oweReference halarm h
  | alarmEntry s key hheld => exact consistent_oweAlarm hheld h
  | alarmFields s f hf =>
    exact consistent_alarmFields (fun r => (hf r).1) (fun r => (hf r).2.1) (fun r => (hf r).2.2) h
  | alarmNew s key hnew hroom => exact consistent_appendAlarm hnew hroom h
  | alarmEvict s r key hr hnew => exact consistent_evict hr hnew h
  | alarmGone s r => exact consistent_removeAlarm r h
  | outlet s k => cases k <;> exact consistent_of_kept h ⟨rfl, rfl, rfl⟩
  | _ => exact consistent_of_kept h ⟨rfl, rfl, rfl⟩

theorem consistent_raiseAlarm (key : AlarmKey) (h : RecordsConsistent s) : RecordsConsistent (raiseAlarm key s) :=
  consistent_yard (Yard.raiseAlarm key (.refl s)) h

/-! ### The clock and the day books (R104, R115, R116) -/

/-- R115: a close owes reports on hour records alone. -/
theorem consistent_closeOpenHour (clockSet : Bool) (h : RecordsConsistent s) :
    RecordsConsistent (closeOpenHour clockSet s) := by
  rw [closeOpenHour_eq_elim]
  cases s.currentBook with
  | none => exact h
  | some b =>
    rw [Option.elim_some]
    cases openHourNumber b with
    | none => exact h
    | some n =>
      refine consistent_yard (Yard.foldl (fun part k => k.oweReference _ fun _ => RecordRef.noConfusion) _ (.refl _)) ?_
      exact consistent_of_kept h ⟨rfl, rfl, rfl⟩

/-- R116: a day close raises DAY-OVERWRITTEN and owes a report on a day book. -/
theorem consistent_dayClose (h : RecordsConsistent s) : RecordsConsistent (dayClose s) := by
  rw [dayClose_eq_elim]
  cases s.currentBook with
  | none => exact h
  | some b =>
    have hraised : RecordsConsistent
        (if s.previousBook.any (fun p => !p.collected) then raised .dayOverwritten 0 s else s) := by
      split
      · exact consistent_raiseAlarm _ h
      · exact h
    exact consistent_oweReference (fun _ => RecordRef.noConfusion) (consistent_of_kept hraised ⟨rfl, rfl, rfl⟩)

theorem consistent_takeWholeHour (hour : Nat) (h : RecordsConsistent s) : RecordsConsistent (takeWholeHour hour s) := by
  unfold takeWholeHour
  split
  · exact h
  · dsimp only
    split
    · exact h
    · have hclosed := consistent_closeOpenHour s.clock.setMark h
      split
      · exact consistent_of_kept (consistent_dayClose hclosed) ⟨rfl, rfl, rfl⟩
      · exact consistent_of_kept hclosed ⟨rfl, rfl, rfl⟩

theorem consistent_takeHourDue (h : RecordsConsistent s) : RecordsConsistent (takeHourDue s) := by
  unfold takeHourDue
  split
  · exact h
  · exact consistent_takeWholeHour _ (consistent_of_kept h ⟨rfl, rfl, rfl⟩)

theorem consistent_setForced (d n : Nat) (h : RecordsConsistent s) : RecordsConsistent (setForced d n s) := by
  have hclosed := consistent_closeOpenHour true h
  unfold setForced
  generalize closeOpenHour true s = v at hclosed ⊢
  have hset : RecordsConsistent
      { v with clock := { v.clock with dayCount := d, timeOfDay := n, setMark := false, hoursDue := [] } } :=
    consistent_of_kept hclosed ⟨rfl, rfl, rfl⟩
  dsimp only
  split
  · exact consistent_of_kept hset ⟨rfl, rfl, rfl⟩
  · split
    · exact consistent_of_kept hset ⟨rfl, rfl, rfl⟩
    · exact consistent_of_kept (consistent_dayClose hset) ⟨rfl, rfl, rfl⟩

/-! ### Commands -/

theorem kept_hearStranger (a : Nat) (b : Branch) (s : State) : RecordsKept s (hearStranger a b s) := by
  unfold hearStranger
  split
  · exact ⟨rfl, rfl, rfl⟩
  · split <;> exact ⟨rfl, rfl, rfl⟩

theorem kept_storeStation (x : StationFields) (s : State) : RecordsKept s (storeStation x s) := by
  unfold storeStation
  split <;> exact ⟨rfl, rfl, rfl⟩

theorem consistent_part (k : Part s t) (h : RecordsConsistent s) : RecordsConsistent t := by
  induction k with
  | trans _ _ ih ih' => exact ih' (ih h)
  | yard k => exact consistent_yard k h
  | quiet k => exact consistent_of_kept h ⟨by rw [isRestarting, k.unit, isRestarting], k.alarms, k.backlog⟩
  | held s e rest x hb hx => exact consistent_held hb hx h
  | retire s e rest hb => exact consistent_retireHead hb h
  | stranger s => exact consistent_of_kept h (kept_hearStranger _ _ s)
  | newStation s => exact consistent_of_kept h (kept_storeStation _ s)
  | hour s => exact consistent_takeHourDue h
  | forcedClock s d n => exact consistent_setForced d n h
  | pend s k hr => exact consistent_of_kept h ⟨hr.symm, rfl, rfl⟩
  | _ => exact consistent_of_kept h ⟨rfl, rfl, rfl⟩

/-! ### Restarts (R174) -/

theorem isRestarting_beginRestart (cause : RestartCause) (s : State) : isRestarting (beginRestart cause s) = true := by
  cases cause <;> rfl

theorem backlog_beginRestart (cause : RestartCause) (s : State) : (beginRestart cause s).backlog = [] := by
  cases cause <;> rfl

/-- R162, R174: the Alarm List is kept by a WARM restart and emptied by any other. -/
theorem alarms_beginRestart (cause : RestartCause) (s : State) :
    (beginRestart cause s).alarms = if cause = .warm then s.alarms else [] := by
  cases cause <;> rfl

/-- R166, R174: a restart empties the backlog, and its records' report-owed flags stand until its end. -/
theorem consistent_beginRestart (cause : RestartCause) (h : RecordsConsistent s) :
    RecordsConsistent (beginRestart cause s) := by
  have hsublist : (beginRestart cause s).alarms.Sublist s.alarms := by
    rw [alarms_beginRestart]
    split
    · exact .refl _
    · exact List.nil_sublist _
  have hrestarting := isRestarting_beginRestart cause s
  have hempty := backlog_beginRestart cause s
  generalize beginRestart cause s = t at hsublist hrestarting hempty
  exact {
    alarmsFit := hsublist.length_le.trans h.alarmsFit
    alarmsDistinct := h.alarmsDistinct.sublist (hsublist.map _)
    counts := fun r hr => h.counts r (hsublist.subset hr)
    backlogFits := by simp [hempty]
    oneReference := by simp [hempty]
    owed := fun hr => absurd (hrestarting.symm.trans hr) nofun
    partsFit := by simp [hempty] }

theorem references_restartEntries (cause : RestartCause) (s : State) :
    references (restartEntries cause s) = (owedKeys s).map .alarm := by
  simp [references, restartEntries, owedKeys, Entry.record?, List.filterMap_cons, Function.comp_def]

/-- R166, R174: after the START entry there is one for each record whose report-owed flag is set. -/
theorem consistent_restartEntries (cause : RestartCause) (hfit : s.alarms.length ≤ 32)
    (hdistinct : (s.alarms.map (·.key)).Nodup) (hcounts : ∀ r ∈ s.alarms, 1 ≤ r.count ∧ r.count ≤ 255) :
    RecordsConsistent (restartEntries cause s) where
  alarmsFit := hfit
  alarmsDistinct := hdistinct
  counts := hcounts
  backlogFits := by
    have := List.length_filter_le (fun r : Alarm => r.reportOwed) s.alarms
    simp only [restartEntries, List.length_cons, List.length_map]
    omega
  oneReference := by
    have hkeys : (owedKeys s).Nodup := hdistinct.sublist (List.filter_sublist.map _)
    have hone := hkeys.map (f := RecordRef.alarm) fun _ _ => RecordRef.alarm.inj
    rw [← references_restartEntries cause s] at hone
    exact hone
  owed := fun _ => owed_iff.mpr fun key => by
    rw [references_restartEntries]
    simp [owedKeys, restartEntries]
  partsFit := fun e he held hheld => by
    obtain rfl | hreference := List.mem_cons.mp he
    · cases hheld
    · obtain ⟨r, -, rfl⟩ := List.mem_map.mp hreference
      cases hheld

/-- At the completion of a restart the backlog is formed afresh, and closes are resumed as the yard blocks do. -/
theorem consistent_completeRestart (h : RecordsConsistent s) : RecordsConsistent (completeRestart s) := by
  unfold completeRestart
  split
  · refine consistent_yard (Yard.foldl (fun k => Directory.resumeClosure_yard k) holderNumbers (.refl _)) ?_
    have hlocal : ∀ v : State, (startLocal v).alarms = v.alarms := by
      intro v
      unfold startLocal
      split <;> rfl
    have halarms : (startSteps (startLocal (startWaiting (startPorts s)))).alarms = s.alarms := hlocal _
    exact consistent_restartEntries _ (halarms ▸ h.alarmsFit) (halarms ▸ h.alarmsDistinct) (halarms ▸ h.counts)
  · exact h

theorem consistent_exec {c : Instr} (k : exec c s = .next t) (h : RecordsConsistent s) : RecordsConsistent t := by
  by_cases hc : c = .restartComplete
  · subst hc
    cases k
    split
    · exact consistent_completeRestart h
    · exact h
  · obtain hpart | ⟨u, cause, hpart, rfl⟩ := PartOrRestart.ofExec k hc
    · exact consistent_part hpart h
    · exact consistent_beginRestart cause (consistent_part hpart h)

end Runs

/-- Settles O55: the command taken is a run of the primitive changes, a restart that follows one, or its completion; of
the primitive changes those of the Alarm List write a report-owed flag together with the entry that refers to the record. -/
theorem recordsStayConsistent : Obligations.RecordsStayConsistent := by
  intro s t k h
  unfold step at k
  split at k
  · cases k
    exact h
  · exact consistent_exec k (consistent_of_kept h ⟨rfl, rfl, rfl⟩)

end Sys2Proof.Records
end

section
/-! SUPPORT. The statements' words about alarm records and the reports owed on them, each tied to the model's operation of
the same meaning. -/

namespace Sys2Proof.Records

open Sys2Proof Sys2Proof.Machine Sys2Proof.Claims Sys2Proof.Laws

/-! ### Words: reports owed (R166) -/

theorem referenced_iff_form {ref : RecordRef} {s : State} :
    referenced ref s = true ↔ .reference ref ∈ s.backlog.map (·.form) := referenced_iff.trans mem_references_iff

theorem addEntry_eq (form : EntryForm) (s : State) :
    addEntry form s =
      if s.backlog.length < 64 then { s with backlog := s.backlog ++ [⟨form, none⟩] }
      else { s with backlogOverflow := true } := rfl

theorem oweReference_eq (ref : RecordRef) (s : State) :
    oweReference ref s =
      if EntryForm.reference ref ∈ s.backlog.map (·.form) then s else addEntry (.reference ref) s := by
  simp only [oweReference, referenced_iff_form]

/-- R163, R164, R166: an ALARM report is owed while the report enable of its kind is on. -/
theorem oweAlarmIfEnabled_eq_alarmOwed (key : AlarmKey) (s : State) : oweAlarmIfEnabled key s = alarmOwed key s := by
  unfold oweAlarmIfEnabled alarmOwed oweAlarm
  by_cases henabled : reportEnabled key.kind s = true
  · have hon : (s.settings.reportEnables[key.kind.code - 1]?).getD false = true := henabled
    simp only [henabled, hon, if_true, true_and, referenced_iff_form, ite_not, beq_iff_eq]
  · have hoff : ¬ (s.settings.reportEnables[key.kind.code - 1]?).getD false = true := henabled
    rw [if_neg henabled, if_neg (fun h => hoff h.1)]

/-! ### Words: records gone (R163, R164, R166) -/

theorem removeAlarm_eq_recordGone (r : Alarm) (s : State) : removeAlarm r s = recordGone r s := by
  simp only [removeAlarm, recordGone, beq_iff_eq]

/-- R163: the overflow flag stands after a removal only while the list is full. -/
theorem settleAlarmOverflow_eq (s : State) :
    settleAlarmOverflow s = { s with alarmOverflow := s.alarmOverflow && decide (32 ≤ s.alarms.length) } := by
  unfold settleAlarmOverflow
  split
  · next hroom =>
    have hfew : ¬ 32 ≤ s.alarms.length := Nat.not_le.mpr hroom
    simp [hfew]
  · next hfull =>
    have hmany : 32 ≤ s.alarms.length := Nat.not_lt.mp hfull
    simp [hmany]

/-- R166: a removal owes a full report where no entry refers to the record. -/
theorem dropAlarm_eq (r : Alarm) (owes : Bool) (s : State) :
    dropAlarm r owes s =
      if owes = false ∨ EntryForm.reference (.alarm r.key) ∈ s.backlog.map (·.form) then recordGone r s
      else oweFull (.removedAlarm r) (recordGone r s) := by
  have hcondition : (referenced (.alarm r.key) s || !owes) = true ↔
      owes = false ∨ EntryForm.reference (.alarm r.key) ∈ s.backlog.map (·.form) := by
    rw [Bool.or_eq_true, referenced_iff_form, Bool.not_eq_true', or_comm]
  simp only [dropAlarm, hcondition, removeAlarm_eq_recordGone]

theorem recordGone_backlog_length (r : Alarm) (s : State) : (recordGone r s).backlog.length = s.backlog.length :=
  List.length_map _

end Sys2Proof.Records
end

section
/-! SUPPORT. The statement about the raising and the clearing of alarms. -/

namespace Sys2Proof.Records

open Sys2Proof Sys2Proof.Machine Sys2Proof.Claims Sys2Proof.Laws

section Held

variable {key : AlarmKey} {s : State} {r : Alarm}

theorem raiseAlarm_held (h : findAlarm key s = some r) :
    raiseAlarm key s = alarmOwed key { s with alarms := s.alarms.map (fun q =>
      if q.key = key then
        { q with count := min 255 (q.count + 1), lastTime := s.timeNow, state := .active, acknowledged := false }
      else q) } := by
  simp only [raiseAlarm, h, oweAlarmIfEnabled_eq_alarmOwed, beq_iff_eq]

theorem clearAlarm_clearedUnacked (h : findAlarm key s = some r) (hstate : r.state = .clearedUnacked) :
    clearAlarm key s = s := by
  simp only [clearAlarm, h, hstate]

theorem clearAlarm_unacknowledged (h : findAlarm key s = some r) (hstate : r.state = .active)
    (hack : r.acknowledged = false) :
    clearAlarm key s = alarmOwed key { s with alarms := s.alarms.map (fun q =>
      if q.key = key then { q with state := .clearedUnacked } else q) } := by
  simp only [clearAlarm, h, hstate, hack, Bool.false_eq_true, if_false, oweAlarmIfEnabled_eq_alarmOwed, beq_iff_eq]

/-- R164: an acknowledged record is removed, and its ALARM report owed in full where no entry refers to it. -/
theorem clearAlarm_acknowledged (h : findAlarm key s = some r) (hstate : r.state = .active)
    (hack : r.acknowledged = true) :
    let gone := { recordGone r s with
      alarmOverflow := s.alarmOverflow && decide (32 ≤ (recordGone r s).alarms.length) }
    clearAlarm key s =
      if reportEnabled key.kind s = false ∨ EntryForm.reference (.alarm key) ∈ s.backlog.map (·.form) then gone
      else if s.backlog.length < 64 then { gone with backlog := gone.backlog ++ [⟨.full (.removedAlarm r), none⟩] }
      else { gone with backlogOverflow := true } := by
  have hkey := Yard.findAlarm_key h
  have hclear : clearAlarm key s = settleAlarmOverflow (dropAlarm r (reportEnabled key.kind s) s) := by
    simp only [clearAlarm, h, hstate, hack, if_true]
  rw [hclear, settleAlarmOverflow_eq, dropAlarm_eq, hkey]
  dsimp only
  split
  · rfl
  · rw [oweFull, addEntry_eq, recordGone_backlog_length]
    split <;> rfl

end Held

section New

variable {key : AlarmKey} {s : State}

theorem clearAlarm_new (h : findAlarm key s = none) : clearAlarm key s = s := by
  simp only [clearAlarm, h]

theorem raiseAlarm_new (h : findAlarm key s = none) (hroom : s.alarms.length < 32) :
    raiseAlarm key s = alarmOwed key (appendAlarm key s) := by
  simp only [raiseAlarm, h, Config.alarmRecords, hroom, if_true, oweAlarmIfEnabled_eq_alarmOwed]

theorem raiseAlarm_evicts {old : Alarm} (h : findAlarm key s = none) (hfull : 32 ≤ s.alarms.length)
    (hold : s.alarms.find? (fun r => r.state == .clearedUnacked) = some old) :
    raiseAlarm key s = alarmOwed key (appendAlarm key (recordGone old s)) := by
  simp only [raiseAlarm, h, Config.alarmRecords, hfull.not_gt, if_false, hold, oweAlarmIfEnabled_eq_alarmOwed,
    removeAlarm_eq_recordGone]

theorem raiseAlarm_overflows (h : findAlarm key s = none) (hfull : 32 ≤ s.alarms.length)
    (hnone : ∀ r ∈ s.alarms, r.state ≠ .clearedUnacked) : raiseAlarm key s = { s with alarmOverflow := true } := by
  have hfind : s.alarms.find? (fun r => r.state == .clearedUnacked) = none :=
    List.find?_eq_none.mpr fun r hr => by simpa using hnone r hr
  simp only [raiseAlarm, h, Config.alarmRecords, hfull.not_gt, if_false, hfind]

end New

/-- Settles O25: the case split is the raise's and the clear's own, and each case's record, report and flag are the
statement's. -/
theorem alarmsAreRaisedAndCleared : Obligations.AlarmsAreRaisedAndCleared :=
  ⟨fun s => ⟨fun ref => oweReference_eq ref s, fun _ => rfl, fun _ _ _ => rfl⟩, fun _ _ =>
    ⟨fun _ h => ⟨raiseAlarm_held h, clearAlarm_clearedUnacked h, clearAlarm_unacknowledged h,
        clearAlarm_acknowledged h⟩,
      fun h => ⟨clearAlarm_new h, raiseAlarm_new h,
        fun hfull => ⟨fun _ => raiseAlarm_evicts h hfull, raiseAlarm_overflows h hfull⟩⟩⟩⟩

end Sys2Proof.Records
end

section
/-! SUPPORT. The statement about ACK-ALARM. -/

namespace Sys2Proof.Records

open Sys2Proof Sys2Proof.Machine Sys2Proof.Claims Sys2Proof.Laws Sys2Proof.Points

theorem not_outside_iff (lo hi v : Nat) : (!outside lo hi v) = true ↔ lo ≤ v ∧ v ≤ hi := by
  simp [outside]

theorem subjectInRange_iff (kind : AlarmKind) (subject : Nat) :
    subjectInRange kind subject = true ↔ subjectFits kind subject := by
  cases kind <;> simp only [subjectInRange, not_outside_iff, beq_iff_eq] <;> simp [subjectFits, AlarmKind.code]

/-- R162: a subject, valve or count out of its range. -/
theorem ackAlarm_range_iff (kind : AlarmKind) (subject valve count : Nat) :
    (!subjectInRange kind subject || (kind == .closeFailed && decide (6 < valve)) || count == 0) = true ↔
      ¬ (subjectFits kind subject ∧ (kind = .closeFailed → valve ≤ 6) ∧ count ≠ 0) := by
  rw [← subjectInRange_iff]
  simp only [Bool.or_eq_true, Bool.not_eq_true', Bool.and_eq_true, beq_iff_eq, decide_eq_true_eq, not_and_or,
    Classical.not_imp, not_le, not_not, Bool.not_eq_true, or_assoc]

section Acknowledge

variable {key : AlarmKey} {u : State} {q : Alarm}

/-- R165, R166: no report is owed on the record removed, but an entry that refers to it turns full. -/
theorem acknowledge_removes (hq : findAlarm key u = some q) (h : q.state = .clearedUnacked ∨ key.kind = .stationMoved) :
    acknowledge key u =
      { recordGone q u with alarmOverflow := u.alarmOverflow && decide (32 ≤ (recordGone q u).alarms.length) } := by
  simp only [acknowledge, hq]
  rw [if_pos h, settleAlarmOverflow_eq, dropAlarm_eq, if_pos (.inl rfl)]
  rfl

theorem acknowledge_keeps (hq : findAlarm key u = some q)
    (h : ¬ (q.state = .clearedUnacked ∨ key.kind = .stationMoved)) :
    acknowledge key u =
      { u with alarms := u.alarms.map (fun x => if x.key = key then { x with acknowledged := true } else x) } := by
  simp only [acknowledge, hq, beq_iff_eq]
  rw [if_neg h]

end Acknowledge

/-- R169: a check that does not fail is passed over. -/
theorem judge_next {b : Bool} {result : ResultCode} {rest : List (Bool × ResultCode)} (h : b ≠ true) (act : State → State)
    (s : State) : judge ((b, result) :: rest) act s = judge rest act s := by
  simp only [judge, firstFailure_next h]

section Formatted

variable {f : List Byte} {u : State} {kind : AlarmKind} (hlen : f.length = 4)
  (hkind : alarmKindOf (octetAt f 0) = some kind)

include hlen hkind

theorem ackAlarm_outOfRange (h : ¬ (subjectFits kind (octetAt f 1) ∧ (kind = .closeFailed → octetAt f 2 ≤ 6) ∧
    octetAt f 3 ≠ 0)) : ackAlarm f u = ⟨.outOfRange, [], u⟩ := by
  simp only [ackAlarm, hkind, Option.getD_some]
  rw [judge_next (by simp [hlen])]
  exact judge_fails (firstFailure_here ((ackAlarm_range_iff _ _ _ _).mpr h)) _ _

variable (h : subjectFits kind (octetAt f 1) ∧ (kind = .closeFailed → octetAt f 2 ≤ 6) ∧ octetAt f 3 ≠ 0)

include h

/-- R165: what is left to judge of an ACK-ALARM in form and range. -/
theorem ackAlarm_inRange :
    let key := ackKey kind (octetAt f 1) (octetAt f 2)
    ackAlarm f u = judge
      [ ((findAlarm key u).isNone, .unknownItem),
        ((findAlarm key u).any (fun q => q.count != octetAt f 3), .staleAck) ] (acknowledge key) u := by
  simp only [ackAlarm, hkind, Option.getD_some]
  rw [judge_next (by simp [hlen]), judge_next (mt (ackAlarm_range_iff _ _ _ _).mp (not_not.mpr h))]

theorem ackAlarm_unknownItem (hnone : findAlarm (ackKey kind (octetAt f 1) (octetAt f 2)) u = none) :
    ackAlarm f u = ⟨.unknownItem, [], u⟩ := by
  rw [ackAlarm_inRange hlen hkind h]
  exact judge_fails (firstFailure_here (Option.isNone_iff_eq_none.mpr hnone)) _ _

variable {q : Alarm} (hq : findAlarm (ackKey kind (octetAt f 1) (octetAt f 2)) u = some q)

include hq

theorem ackAlarm_staleAck (hcount : q.count ≠ octetAt f 3) : ackAlarm f u = ⟨.staleAck, [], u⟩ := by
  rw [ackAlarm_inRange hlen hkind h, judge_next (by simp [hq])]
  exact judge_fails (firstFailure_here (by simp [hq, hcount])) _ _

theorem ackAlarm_accepted (hcount : q.count = octetAt f 3) :
    ackAlarm f u = ⟨.accepted, [], acknowledge (ackKey kind (octetAt f 1) (octetAt f 2)) u⟩ := by
  rw [ackAlarm_inRange hlen hkind h, judge_next (by simp [hq]), judge_next (by simp [hq, hcount])]
  exact judge_accepts firstFailure_nil _ _

end Formatted

/-- Settles O50: the first of the four checks that fails, or the record removed or acknowledged. -/
theorem ackAlarmActs : Obligations.AckAlarmActs := by
  intro f r s u h
  have answer : ∀ {result : ResultCode} {v : State}, ackAlarm f u = ⟨result, [], v⟩ →
      exec .ackAlarm s = .next (answered r 20 result [] v) := request_of_performed h (by decide) (by decide)
  refine ⟨fun hformat => answer (judge_fails (firstFailure_here (by simpa using hformat)) _ _),
    fun kind hlen hkind => ⟨fun hrange => answer (ackAlarm_outOfRange hlen hkind hrange),
      fun hfits hnone => answer (ackAlarm_unknownItem hlen hkind hfits hnone), fun q hfits hq => ?_⟩⟩
  by_cases hcount : q.count = octetAt f 3
  · rw [if_neg (not_not.mpr hcount)]
    have hfound : findAlarm (ackKey kind (octetAt f 1) (octetAt f 2)) u = some q := hq
    have haccepted := ackAlarm_accepted hlen hkind hfits hfound hcount
    by_cases hremoved : q.state = .clearedUnacked ∨ kind = .stationMoved
    · rw [if_pos hremoved]
      rw [acknowledge_removes hfound hremoved, recordGone, Yard.findAlarm_key hfound] at haccepted
      exact ⟨_, answer haccepted, rfl⟩
    · rw [if_neg hremoved]
      rw [acknowledge_keeps hfound hremoved] at haccepted
      exact answer haccepted
  · rw [if_pos hcount]
    exact answer (ackAlarm_staleAck hlen hkind hfits hq hcount)

end Sys2Proof.Records
end

section
/-! SUPPORT. The statements' words about the forms of R149 and the content of reports, each tied to the model's. -/

namespace Sys2Proof.Reports

open Sys2Proof Sys2Proof.Machine Sys2Proof.Claims Sys2Proof.Laws

/-! ### Words: forms (R149) -/

theorem laid_succ (k v : Nat) : laid (k + 1) v = octet (v / 256 ^ k) :: laid k v := by
  simp only [laid, List.range_succ_eq_map, List.map_cons, List.map_map, Function.comp_def, Nat.add_sub_cancel,
    Nat.sub_zero, Nat.succ_eq_add_one, Nat.sub_sub, Nat.add_comm 1]

/-- A number's octets, high octet first. -/
theorem octetsOf_eq_laid (k v : Nat) : octetsOf k v = laid k v := by
  induction k with
  | zero => rfl
  | succ k ih => rw [laid_succ, octetsOf, ih]

theorem form_eq_num (k : Nat) (v : Int) : form k v = num k v := by
  unfold form num
  split <;> exact octetsOf_eq_laid _ _

theorem formNat_eq_numOr (k : Nat) (v : Option Nat) : formNat k v = numOr k v := by
  cases v with
  | none => rfl
  | some n => exact form_eq_num k n

theorem numOr_some (k v : Nat) : numOr k (some v) = num k v := rfl

theorem formOr_eq_elim (k : Nat) (v : Option Int) : formOr k v = v.elim (absent k) (num k) := by
  cases v with
  | none => rfl
  | some n => exact form_eq_num k n

theorem signedForm_eq_signedOr (k : Nat) (v : Option Int) : signedForm k v = signedOr k v := by
  cases v with
  | none => rfl
  | some n =>
    simp only [signedForm, signedOr]
    split <;> exact octetsOf_eq_laid _ _

theorem small_eq (v : Nat) : small v = num 1 v := form_eq_num 1 v
theorem smallOr_eq (v : Option Nat) : smallOr v = numOr 1 v := formNat_eq_numOr 1 v
theorem twoOctets_eq (v : Nat) : twoOctets v = num 2 v := form_eq_num 2 v
theorem twoOctetsOr_eq (v : Option Nat) : twoOctetsOr v = numOr 2 v := formNat_eq_numOr 2 v
theorem wide_eq (v : Nat) : wide v = num 4 v := form_eq_num 4 v
theorem wideOr_eq (v : Option Nat) : wideOr v = numOr 4 v := formNat_eq_numOr 4 v
theorem stockForm_eq (v : Option Nat) : stockForm v = numOr 5 v := formNat_eq_numOr 5 v
theorem energyForm_eq (v : Option Nat) : energyForm v = numOr 6 v := formNat_eq_numOr 6 v
theorem balance_eq (v : Option Int) : balance v = signedOr 6 v := signedForm_eq_signedOr 6 v

theorem flagOctet_eq_yes (b : Bool) : flagOctet b = yes b := by
  rw [flagOctet, small_eq]
  cases b <;> rfl

theorem unstatedFlags_eq : unstatedFlags = flagsAbsent := octetsOf_eq_laid 1 _

theorem flags_eq_flagsShown (q : HourFlags) : num 1 q.value = flagsShown q := by
  rw [flagsShown, flagSet]
  congr 2
  obtain ⟨countGap, cvDeclared, clockSet, stockPartial, degraded⟩ := q
  cases countGap <;> cases cvDeclared <;> cases clockSet <;> cases stockPartial <;> cases degraded <;> rfl

/-! ### Words: codes -/

theorem alarmKind_code (k : AlarmKind) : k.code = alarmKinds.idxOf k + 1 := by cases k <;> rfl

theorem refusalReason_code (x : RefusalReason) : x.code = refusalReasons.idxOf x + 1 := by cases x <;> rfl

theorem supersessionCause_code (x : SupersessionCause) : x.code = supersessionCauses.idxOf x + 1 := by cases x <;> rfl

theorem condition_code (x : Condition) : num 1 x.code = conditionShown x := by cases x <;> rfl

theorem stockQuality_code (x : StockQuality) : num 1 x.code = stockQualityShown x := by cases x <;> rfl

theorem mode_code (x : Mode) : num 1 x.code = modeShown x := by cases x <;> rfl

theorem hourState_code (x : HourState) : num 1 x.code = hourStateShown x := by cases x <;> rfl

theorem restartCause_code (x : RestartCause) : x.code = [RestartCause.power, .cold, .warm].idxOf x := by cases x <;> rfl

theorem alarmState_code (r : Alarm) : r.state.code = alarmStateCode r := by
  unfold alarmStateCode
  cases r.state <;> rfl

theorem mark_eq_markShown (m : Option Bool) : smallOr (m.map boolCode) = markShown m := by
  rw [smallOr_eq]
  obtain _ | _ | _ := m <;> rfl

/-! ### Words: contents of records (R168) -/

theorem key_eq_keyShown (key : AlarmKey) :
    num 1 key.kind.code ++ num 1 key.subject ++ numOr 1 key.valve = keyShown key := by
  rw [alarmKind_code]
  rfl

theorem alarmContent_eq_alarmShown (r : Alarm) (state : Nat) : alarmContent r state = alarmShown r state := by
  simp only [alarmContent, alarmShown, small_eq, smallOr_eq, wideOr_eq, flagOctet_eq_yes, key_eq_keyShown]

theorem holderContent_eq_holderShown (h : Nat) (r : Holder) : holderContent h r = holderShown h r := by
  simp only [holderContent, holderShown, condition_code, stockQuality_code, small_eq, smallOr_eq, twoOctetsOr_eq,
    wideOr_eq, stockForm_eq, flagOctet_eq_yes]

theorem setpointContent_eq_setpointShown (d : Nat) (r : District) : setpointContent d r = setpointShown d r := by
  simp only [setpointContent, setpointShown, mode_code, mark_eq_markShown, small_eq, twoOctets_eq, twoOctetsOr_eq,
    flagOctet_eq_yes]

theorem districtHourContent_eq (gasDay n d : Nat) (state : HourState) (q : DistrictHour) :
    districtHourContent gasDay n d state q = districtHourShown gasDay n d state q := by
  simp only [districtHourContent, districtHourShown, hourState_code, flags_eq_flagsShown, small_eq, twoOctets_eq,
    twoOctetsOr_eq, wide_eq, stockForm_eq, energyForm_eq, formOr_eq_elim, numOr_some]

theorem makeStockContent_eq (gasDay n : Nat) (r : Hour) : makeStockContent gasDay n r = makeStockShown gasDay n r := by
  simp only [makeStockContent, makeHourContent, makeStockShown, hourState_code, flags_eq_flagsShown, small_eq,
    twoOctets_eq, stockForm_eq, energyForm_eq, numOr_some, Nat.cast_ofNat]

theorem goneHourContent_eq (gasDay n part : Nat) : goneHourContent gasDay n part = hourGone gasDay n part := by
  simp only [goneHourContent, hourGone, unstatedFlags_eq, small_eq, twoOctets_eq, twoOctetsOr_eq, wideOr_eq,
    stockForm_eq, energyForm_eq]
  simp [numOr]

theorem dayContent_eq_dayShown (b : DayBook) : dayContent b = dayShown b := by
  simp only [dayContent, dayShown, totalPair, unstatedFlags_eq, small_eq, twoOctets_eq, stockForm_eq, energyForm_eq,
    balance_eq, flagOctet_eq_yes, numOr_some]
  cases ht : b.totals with
  | none => simp
  | some t => simp [flags_eq_flagsShown]

theorem goneDayContent_eq (gasDay : Nat) : goneDayContent gasDay = dayGone gasDay := by
  simp only [goneDayContent, dayGone, totalPair, unstatedFlags_eq, small_eq, smallOr_eq, twoOctets_eq, stockForm_eq,
    energyForm_eq, balance_eq]
  simp [numOr, absent]

theorem find?_toList (o : Option DayBook) (p : DayBook → Bool) : o.toList.find? p = o.filter p := by
  cases o with
  | none => rfl
  | some b => rw [Option.toList_some, List.find?_singleton, Option.filter_some]

theorem findBook_eq_bookOf (serial : Nat) (s : State) : findBook serial s = bookOf serial s := by
  simp only [findBook, bookOf, List.find?_append, find?_toList]

/-- R118, R168: an hour's content where its book is held, and where it has ceased to be. -/
theorem hourContent_eq (book gasDay n part : Nat) (s : State) :
    reportContent s (.reference (.hour book gasDay n part)) = ⟨6, false, [hourShown book gasDay n part s]⟩ := by
  simp only [reportContent, hourShown, findBook_eq_bookOf]
  cases (bookOf book s).bind (fun b => b.hours[n]?) with
  | none => simp only [goneHourContent_eq]
  | some r =>
    dsimp only
    split
    · rw [makeStockContent_eq]
    · cases r.districts[part - 1]? with
      | none => simp only [goneHourContent_eq, Option.elim_none]
      | some q => simp only [districtHourContent_eq, Option.elim_some]

/-- R167, R168: the content of every kind of report. -/
theorem reportContent_eq_reportOf (s : State) (form : EntryForm) : reportContent s form = reportOf s form := by
  cases form with
  | full r =>
    cases r with
    | refusal a code operand reason =>
      simp only [reportContent, reportOf, small_eq, smallOr_eq, twoOctetsOr_eq, refusalReason_code]
      rfl
    | superseded a code operand cause =>
      simp only [reportContent, reportOf, small_eq, smallOr_eq, twoOctetsOr_eq, supersessionCause_code]
      rfl
    | removedAlarm r => simp only [reportContent, reportOf, alarmContent_eq_alarmShown]
    | start cause =>
      simp only [reportContent, reportOf, startContent, small_eq, twoOctets_eq, wide_eq, flagOctet_eq_yes,
        restartCause_code]
  | reference ref =>
    cases ref with
    | alarm key =>
      simp only [reportContent, reportOf, findAlarm]
      cases s.alarms.find? (fun r => r.key == key) with
      | none => simp [small_eq, smallOr_eq, wideOr_eq, ← key_eq_keyShown, numOr, absent]
      | some r => simp only [alarmContent_eq_alarmShown, alarmState_code, Option.elim_some]
    | holder h =>
      simp only [reportContent, reportOf]
      cases s.holder h with
      | none => simp only [small_eq, absent, Option.elim_none]
      | some r => simp only [holderContent_eq_holderShown, Option.elim_some]
    | district d =>
      simp only [reportContent, reportOf]
      cases s.district d with
      | none => simp only [small_eq, absent, Option.elim_none]
      | some r => simp only [setpointContent_eq_setpointShown, Option.elim_some]
    | hour book gasDay n part => exact hourContent_eq book gasDay n part s
    | day book gasDay =>
      simp only [reportContent, reportOf, findBook_eq_bookOf]
      cases bookOf book s with
      | none => simp only [goneDayContent_eq, Option.elim_none]
      | some b => simp only [dayContent_eq_dayShown, Option.elim_some]

end Sys2Proof.Reports
end

section
/-! SUPPORT. The statement's words about report parts and the sending of the backlog, each tied to the model's operation of
the same meaning, and that the sending ends. -/

namespace Sys2Proof.Reports

open Sys2Proof Sys2Proof.Machine Sys2Proof.Claims Sys2Proof.Laws

/-! ### Words: parts (R151, R167) -/

theorem takeGeneral_uncharged (s : State) :
    takeGeneral none s = if 0 < s.line.freeGeneral then
      some (⟨.general, none⟩, { s with line := { s.line with freeGeneral := s.line.freeGeneral - 1 } }) else none := by
  simp only [takeGeneral, mayTakeGeneral, Bool.and_true, decide_eq_true_eq]

/-- R151, R167: the buffer of a part, and the counts after its taking. -/
theorem takeForReport_eq_partTaking (c : ReportContent) (s : State) :
    takeForReport c s = (partTaking c.urgent s.line).map (fun x => (⟨x.1, none⟩, { s with line := x.2 })) := by
  unfold takeForReport takeUrgent partTaking
  rw [takeGeneral_uncharged]
  by_cases hgeneral : 0 < s.line.freeGeneral
  · simp only [if_pos hgeneral, ite_self, Option.map_some]
  · simp only [if_neg hgeneral]
    by_cases hurgent : c.urgent = true
    · simp only [hurgent, if_true, true_and]
      split <;> rfl
    · simp only [hurgent, Bool.false_eq_true, if_false, false_and, Option.map_none]

theorem retireHead_eq_headLeft (e : Entry) (rest : List Entry) (s : State) : retireHead e rest s = headLeft e rest s := by
  unfold retireHead headLeft
  dsimp only
  split
  · next key hform =>
    simp only [hform, EntryForm.reference.injEq, RecordRef.alarm.injEq, beq_iff_eq, eq_comm (a := key)]
  · next hform =>
    have hother : ∀ q : Alarm, e.form ≠ .reference (.alarm q.key) := fun q => hform q.key
    simp only [hother, if_false, List.map_id']

/-- R167: the next part, with its number among the parts of its report. -/
theorem sendPart_eq_partSent (tested : Bool) (s : State) : sendPart tested s = partSent tested s := by
  unfold sendPart partSent
  simp only [reportContent_eq_reportOf, takeForReport_eq_partTaking, retireHead_eq_headLeft]
  cases s.backlog with
  | nil => rfl
  | cons e rest =>
    dsimp only
    cases (e.held.getD ⟨(reportOf s e.form).parts.length, (reportOf s e.form).parts⟩).remaining with
    | nil => rfl
    | cons part later =>
      dsimp only
      cases partTaking (reportOf s e.form).urgent s.line with
      | none => rfl
      | some x => cases later <;> rfl

theorem claimForBacklog_eq (s : State) :
    claimForBacklog s =
      { s with claims := if Claim.backlog ∈ s.claims then s.claims else s.claims ++ [.backlog] } := by
  simp only [claimForBacklog, List.contains_iff_mem]
  split <;> rfl

theorem sendReports_eq_reportsSent (tested : Bool) (n : Nat) (s : State) :
    sendReports tested n s = reportsSent tested n s := by
  induction n generalizing s with
  | zero => rfl
  | succ n ih =>
    simp only [sendReports, reportsSent, List.isEmpty_iff, sendPart_eq_partSent, ih, claimForBacklog_eq] <;> rfl

/-- R153: a claim of the backlog is met by the next part, and the sending goes on. -/
theorem offerClaim_backlog (s : State) :
    offerClaim .backlog s = (partSent false s).map (fun t =>
      ([], reportsSent false 193 { t with claims := t.claims.filter (· != .backlog) })) := by
  simp only [offerClaim, sendPart_eq_partSent, sendReports_eq_reportsSent]
  cases partSent false s <;> rfl

/-! ### The sending ends (R167) -/

section Ends

variable {tested : Bool} {s t : State}

/-- The turns an entry can take: its parts still to be sent, three for a report not yet begun. -/
def turnsOf (e : Entry) : Nat := e.held.elim 3 (fun h => max 1 h.remaining.length)

theorem turnsOf_pos (e : Entry) : 1 ≤ turnsOf e := by
  unfold turnsOf
  cases e.held with
  | none => decide
  | some h => exact le_max_left _ _

/-- The turns a backlog can take. -/
def turnsLeft (s : State) : Nat := (s.backlog.map turnsOf).sum

theorem turnsLeft_le (h : RecordsConsistent s) : turnsLeft s ≤ 192 := by
  have hentry : ∀ n ∈ s.backlog.map turnsOf, n ≤ 3 := by
    simp only [List.forall_mem_map]
    intro e he
    unfold turnsOf
    cases hheld : e.held with
    | none => exact le_refl 3
    | some x => exact max_le (by decide) (h.partsFit e he x hheld)
  have hsum := List.sum_le_card_nsmul _ 3 hentry
  have hfits := h.backlogFits
  rw [List.length_map, smul_eq_mul] at hsum
  unfold turnsLeft
  omega

/-- R167: what a part sent makes of the backlog: the head leaves, or holds the parts after the one sent. -/
theorem partSent_backlog (h : partSent tested s = some t) :
    ∃ e rest, s.backlog = e :: rest ∧ (t.backlog = rest ∨ ∃ count part later,
      e.held.getD ⟨(reportOf s e.form).parts.length, (reportOf s e.form).parts⟩ = ⟨count, part :: later⟩ ∧ later ≠ [] ∧
        t.backlog = { e with held := some ⟨count, later⟩ } :: rest) := by
  unfold partSent at h
  split at h
  · cases h
  · next e rest hb =>
    refine ⟨e, rest, hb, ?_⟩
    dsimp only at h
    generalize e.held.getD ⟨(reportOf s e.form).parts.length, (reportOf s e.form).parts⟩ = x at h
    obtain ⟨count, remaining⟩ := x
    cases remaining with
    | nil =>
      cases h
      exact .inl rfl
    | cons part later =>
      obtain ⟨taking, -, rfl⟩ := Option.map_eq_some_iff.mp h
      dsimp only
      split
      · exact .inl rfl
      · next hlater => exact .inr ⟨count, part, later, rfl, hlater, rfl⟩

/-- R167: each part sent leaves fewer turns, no report having more than three parts (R168). -/
theorem turnsLeft_partSent_lt (h : partSent tested s = some t) : turnsLeft t < turnsLeft s := by
  obtain ⟨e, rest, hs, ht | ⟨count, part, later, hheld, hlater, ht⟩⟩ := partSent_backlog h
  · have := turnsOf_pos e
    simp only [turnsLeft, hs, ht, List.map_cons, List.sum_cons]
    omega
  · have hpos := List.length_pos_iff.mpr hlater
    have hturns : later.length + 1 ≤ turnsOf e := by
      cases hx : e.held with
      | none =>
        have hparts := Part.reportParts s e.form
        rw [hx, Option.getD_none, HeldReport.mk.injEq, ← reportContent_eq_reportOf] at hheld
        simpa [turnsOf, hx, hheld.2] using hparts
      | some x =>
        rw [hx, Option.getD_some] at hheld
        simp [turnsOf, hx, hheld]
    have hnext : turnsOf { e with held := some ⟨count, later⟩ } = later.length := max_eq_right hpos
    simp only [turnsLeft, hs, ht, List.map_cons, List.sum_cons, hnext]
    omega

/-- R167: given turns enough, the backlog is emptied or waits with its claim. -/
theorem reportsSent_ends {n : Nat} (h : turnsLeft s ≤ n) :
    (reportsSent tested n s).backlog = [] ∨ Claim.backlog ∈ (reportsSent tested n s).claims := by
  induction n generalizing s with
  | zero =>
    cases hb : s.backlog with
    | nil => exact .inl hb
    | cons e rest =>
      have := turnsOf_pos e
      simp only [turnsLeft, hb, List.map_cons, List.sum_cons] at h
      omega
  | succ n ih =>
    unfold reportsSent
    split
    · next hempty => exact .inl hempty
    · cases hpart : partSent tested s with
      | some t =>
        have := turnsLeft_partSent_lt hpart
        exact ih (by omega)
      | none =>
        refine .inr ?_
        dsimp only
        split
        · assumption
        · exact List.mem_append_right _ (List.mem_singleton_self _)

end Ends

/-! ### The counts a holding test leaves (R158 to R161) -/

theorem controlCopy_freeGeneral_le (kind : Nat) (body : List Byte) (p : Port) (s : State) :
    (controlCopy kind body p s).line.freeGeneral ≤ s.line.freeGeneral := by
  unfold controlCopy
  split
  · exact le_refl _
  · next b v hv =>
    rw [enqueue, modPort_freeGeneral]
    obtain ⟨-, -, ⟨-, hg, -⟩ | ⟨-, hg, hg', -⟩⟩ := takeUrgent_counts hv <;> omega

theorem enterHolding_freeGeneral_le (s : State) : (enterHolding s).line.freeGeneral ≤ s.line.freeGeneral :=
  (controlCopy_freeGeneral_le _ _ _ _).trans (controlCopy_freeGeneral_le _ _ _ _)

theorem leaveHolding_freeGeneral_le (s : State) : (leaveHolding s).line.freeGeneral ≤ s.line.freeGeneral := by
  have hcopies : (controlCopy kindGo [] .s (controlCopy kindGo [] .n
      { s with line := { s.line with holding := .notHolding, repeatTimer := .stopped } })).line.freeGeneral ≤
        s.line.freeGeneral :=
    (controlCopy_freeGeneral_le _ _ _ _).trans (controlCopy_freeGeneral_le _ _ _ _)
  unfold leaveHolding
  dsimp only
  split
  · exact (enterHolding_freeGeneral_le _).trans hcopies
  · exact hcopies

/-- R158: a holding test takes buffers and frees none. -/
theorem holdingTest_freeGeneral_le (s : State) : (holdingTest s).line.freeGeneral ≤ s.line.freeGeneral := by
  unfold holdingTest
  split <;> split
  · exact enterHolding_freeGeneral_le s
  · exact le_refl _
  · exact leaveHolding_freeGeneral_le s
  · exact le_refl _

end Sys2Proof.Reports
end

section
/-! SUPPORT. The statement about REPORT_SEND. -/

namespace Sys2Proof.Reports

open Sys2Proof Sys2Proof.Machine Sys2Proof.Claims Sys2Proof.Laws

variable {s t : State}

theorem reportSend_sends (hr : isRestarting s = false) (hb : s.backlog ≠ []) (hc : Claim.backlog ∉ s.claims) :
    exec .reportSend s = .next (reportsSent true 193 s) := by
  change execReportSend s = _
  rw [execReportSend, arrival_acts hr (by simp [hb, hc]), sendReports_eq_reportsSent]
  rfl

/-! ### Turns of the sending (R167) -/

theorem reportsSent_of_empty {tested : Bool} (n : Nat) (h : s.backlog = []) : reportsSent tested n s = s := by
  cases n with
  | zero => rfl
  | succ n => rw [reportsSent, if_pos h]

theorem reportsSent_of_sent {tested : Bool} (n : Nat) (hb : s.backlog ≠ []) (h : partSent tested s = some t) :
    reportsSent tested (n + 1) s = reportsSent tested n t := by
  simp only [reportsSent, if_neg hb, h]

theorem reportsSent_of_waits {tested : Bool} (n : Nat) (hb : s.backlog ≠ []) (hc : Claim.backlog ∉ s.claims)
    (h : partSent tested s = none) : reportsSent tested (n + 1) s = { s with claims := s.claims ++ [.backlog] } := by
  simp only [reportsSent, if_neg hb, h, if_neg hc]

/-- R151: where no general buffer is free, a ROUTINE part waits. -/
theorem partTaking_routine_none {l : Line} (h : l.freeGeneral = 0) : partTaking false l = none := by
  simp [partTaking, h]

theorem partTaking_last (urgent : Bool) {l : Line} (h : l.freeGeneral = 1) :
    partTaking urgent l = some (.general, { l with freeGeneral := 0 }) := by
  simp [partTaking, h]

/-- R156, R168: a report's class is that of its kind, whatever the records hold. -/
theorem reportOf_urgent (s t : State) (form : EntryForm) : (reportOf s form).urgent = (reportOf t form).urgent := by
  cases form with
  | full r => cases r <;> rfl
  | reference ref => cases ref <;> rfl

/-- R167: a part of a report, with its number and the count of parts, in its queue once its buffer is taken. -/
def partQueued (tested : Bool) (r : ReportContent) (number count : Nat) (part : List Byte) (x : BufferClass × Line)
    (s : State) : State :=
  let t := { s with line := x.2 }
  enqueue .o r.urgent ⟨⟨x.1, none⟩, frame 0 240 6 (octet r.kind :: octet number :: octet count :: part), .plain⟩
    (if tested then holdingTest t else t)

/-- R167: the turn of a head entry that has a part to send. -/
theorem partSent_of_head {tested : Bool} {e : Entry} {rest : List Entry} {count : Nat} {part : List Byte}
    {later : List (List Byte)} (hb : s.backlog = e :: rest)
    (hheld : e.held.getD ⟨(reportOf s e.form).parts.length, (reportOf s e.form).parts⟩ = ⟨count, part :: later⟩) :
    partSent tested s = (partTaking (reportOf s e.form).urgent s.line).map (fun x =>
      let t := partQueued tested (reportOf s e.form) (count - later.length) count part x s
      if later = [] then headLeft e rest t
      else { t with backlog := { e with held := some ⟨count, later⟩ } :: rest }) := by
  unfold partSent
  split
  · next hempty => exact absurd (hempty.symm.trans hb) nofun
  · next q others hq =>
    obtain ⟨rfl, rfl⟩ := List.cons.inj (hq.symm.trans hb)
    simp only [hheld]
    rfl

/-! ### A single entry of one part (R167) -/

/-- R167: the part goes and the entry leaves, or it waits with the claim. -/
theorem reportsSent_single {form : EntryForm} {content : List Byte} (hb : s.backlog = [⟨form, none⟩])
    (hparts : (reportOf s form).parts = [content]) (hc : Claim.backlog ∉ s.claims) :
    reportsSent true 193 s = (partTaking (reportOf s form).urgent s.line).elim
      { s with claims := s.claims ++ [.backlog] }
      (fun x => headLeft ⟨form, none⟩ [] (partQueued true (reportOf s form) 1 1 content x s)) := by
  have hnonempty : s.backlog ≠ [] := hb ▸ List.cons_ne_nil _ _
  have hheld : (none : Option HeldReport).getD ⟨(reportOf s form).parts.length, (reportOf s form).parts⟩ =
      ⟨1, [content]⟩ := by
    rw [hparts]
    rfl
  have hsent := partSent_of_head (tested := true) hb hheld
  cases htaking : partTaking (reportOf s form).urgent s.line with
  | none =>
    rw [htaking] at hsent
    exact reportsSent_of_waits 192 hnonempty hc hsent
  | some x =>
    rw [htaking] at hsent
    exact (reportsSent_of_sent 192 hnonempty hsent).trans (reportsSent_of_empty 192 rfl)

/-! ### A part of a ROUTINE entry of more (R167) -/

/-- R167: a part goes with the one general buffer free; the entry stays the head, and its next part waits with the claim. -/
theorem reportsSent_routine {e : Entry} {rest : List Entry} {count : Nat} {part next : List Byte}
    {later : List (List Byte)} (hb : s.backlog = e :: rest) (hroutine : (reportOf s e.form).urgent = false)
    (hfree : s.line.freeGeneral = 1) (hc : Claim.backlog ∉ s.claims)
    (hheld : e.held.getD ⟨(reportOf s e.form).parts.length, (reportOf s e.form).parts⟩ =
      ⟨count, part :: next :: later⟩) :
    reportsSent true 193 s =
      { partQueued true (reportOf s e.form) (count - (later.length + 1)) count part
          (.general, { s.line with freeGeneral := 0 }) s with
        backlog := { e with held := some ⟨count, next :: later⟩ } :: rest, claims := s.claims ++ [.backlog] } := by
  have hfirst := partSent_of_head (tested := true) hb hheld
  rw [partTaking_last _ hfree, Option.map_some] at hfirst
  dsimp only at hfirst
  rw [if_neg (List.cons_ne_nil next later), List.length_cons] at hfirst
  set t := partQueued true (reportOf s e.form) (count - (later.length + 1)) count part
    (.general, { s.line with freeGeneral := 0 }) s with ht
  have hline : LineOnly s t := ((LineOnly.line s _).holdingTest).enqueue _ _ _
  have hclaims : t.claims = s.claims := (congrArg State.claims hline :)
  have hempty : t.line.freeGeneral = 0 := by
    rw [← Nat.le_zero, ht, partQueued, enqueue, modPort_freeGeneral]
    exact holdingTest_freeGeneral_le { s with line := { s.line with freeGeneral := 0 } }
  have hwaits : partSent true { t with backlog := { e with held := some ⟨count, next :: later⟩ } :: rest } = none := by
    rw [partSent_of_head rfl rfl, reportOf_urgent _ s, hroutine, partTaking_routine_none hempty, Option.map_none]
  rw [reportsSent_of_sent 192 (hb ▸ List.cons_ne_nil _ _) hfirst,
    reportsSent_of_waits 191 (List.cons_ne_nil _ _) (hclaims ▸ hc) hwaits, hclaims]

/-- Settles O24: the statement's words are the model's operations; 192 turns end the sending, as each part sent leaves
fewer; and the two next states are those of one turn, and of one turn and a wait. -/
theorem reportSendActs : Obligations.ReportSendActs := by
  refine ⟨reportContent_eq_reportOf, offerClaim_backlog, fun s hr hb hc => ?_⟩
  have hsends := reportSend_sends hr hb hc
  refine ⟨hsends, fun h => ⟨_, hsends, reportsSent_ends ((turnsLeft_le h).trans (by decide))⟩,
    fun form content hsingle hparts => ?_, fun e rest count part next later hhead hroutine hfree hheld => ?_⟩
  · have hsent := reportsSent_single hsingle hparts hc
    rw [hsends, hsent]
    unfold partTaking
    dsimp only
    split_ifs <;> rfl
  · rw [hsends, reportsSent_routine hhead hroutine hfree hc hheld, partQueued, hroutine]
    rfl

end Sys2Proof.Reports
end

section
/-! SUPPORT. The statements about the beginning of a restart, and what a restart under way does not take. -/

namespace Sys2Proof.Restarts

open Sys2Proof Sys2Proof.Machine Sys2Proof.Claims Sys2Proof.Laws Sys2Proof.Setpoints

/-! ### While the unit is RESTARTING (R174) -/

theorem isRestarting_of_restarting {s : State} {cause : RestartCause} (h : s.unit = .restarting cause) :
    isRestarting s = true := by simp [isRestarting, h]

/-- R100, R174: every command but the application of supply, the completion and the running clock is an arrival. -/
theorem exec_eq_arrival {c : Instr} (hpower : c ≠ .powerOn) (hcomplete : c ≠ .restartComplete)
    (hsecond : c ≠ .clockSecond) : ∃ arises act, exec c = arrival arises act := by
  cases c with
  | powerOn => exact absurd rfl hpower
  | restartComplete => exact absurd rfl hcomplete
  | clockSecond => exact absurd rfl hsecond
  | _ => exact ⟨_, _, rfl⟩

/-- Settles O3: every other command is an arrival, and a restart under way takes none. -/
theorem nothingTakenWhileRestarting : Obligations.NothingTakenWhileRestarting := by
  intro c s cause h hpower hcomplete hsecond
  obtain ⟨arises, act, harrival⟩ := exec_eq_arrival hpower hcomplete hsecond
  rw [harrival]
  exact arrival_restarting (isRestarting_of_restarting h)

/-! ### Records over a restart -/

theorem tableGet_mapRecords {α : Type} {n : Nat} (f : α → α) (v : Vector (Option α) n) (i : Nat) :
    tableGet (mapRecords f v) i = (tableGet v i).map f := recordGet_mapRecords f v (i + 1)

theorem mapRecords_replicate_none {α : Type} (n : Nat) (f : α → α) :
    mapRecords f (Vector.replicate n none) = Vector.replicate n none := Vector.map_replicate

theorem recordGet_replicate_none {α : Type} (n k : Nat) : recordGet (Vector.replicate n (none : Option α)) k = none := by
  cases k with
  | zero => rfl
  | succ i =>
    simp only [recordGet, tableGet, Vector.getElem?_replicate]
    split <;> rfl

/-- R1: a point over a WARM restart, by its quality. -/
theorem point_restarted_eq (p : Point) :
    p.restarted = if p.quality = .none then p else { p with quality := .stale } := by
  unfold Point.restarted
  cases p.quality <;> rfl

/-! ### The beginning (R173, R174) -/

/-- R173: the reset timer's expiry begins the restart of the kind held. -/
theorem resetTimerExpiry_begins {k : RestartKind} {s : State} (h : s.unit = .resetPending k) :
    exec .resetTimerExpiry s = .next (beginRestart k.cause s) := by
  rw [Ports.resetTimerExpiry_acts h]
  simp only [beginPending, h]

/-- Settles O6: COLD begins afresh; WARM leaves what it does not write, and each record table is changed record by
record. -/
theorem resetTimerBeginsRestart : Obligations.ResetTimerBeginsRestart := by
  intro s
  refine ⟨fun hcold => resetTimerExpiry_begins hcold, fun hwarm => ⟨beginWarm s, resetTimerExpiry_begins hwarm, ?_⟩⟩
  have hpoints : ∀ n, (beginWarm s).point n =
      (s.point n).map (fun p => if p.quality = .none then p else { p with quality := .stale }) := by
    intro n
    simp only [← point_restarted_eq]
    exact tableGet_mapRecords _ _ _
  exact ⟨rfl, rfl, rfl, rfl, rfl, rfl, rfl, rfl, rfl, rfl, rfl, rfl, rfl, rfl, rfl, rfl, rfl, rfl, rfl, rfl, rfl, rfl, hpoints,
    recordGet_mapRecords _ _, recordGet_mapRecords _ _, recordGet_mapRecords _ _⟩

/-! ### The completion (R174) -/

theorem startLocal_eq (s : State) :
    startLocal s = { s with localConverter := converterStarted s.localConverter } := by
  unfold startLocal converterStarted
  split <;> rfl

theorem resumeClosure_eq_closureResumed : resumeClosure = closureResumed := by
  funext s h
  unfold resumeClosure closureResumed
  cases s.holder h with
  | none => rfl
  | some r => simp only [serve_eq_headTaken, handOver_eq_sequenceHanded]

/-- R174: the unit READY, its timers started and its backlog formed, before the closes are resumed. -/
def readied (cause : RestartCause) (s : State) : State :=
  { s with
    unit := .ready
    line := { s.line with
      portO := portStarted 5 s.line.portO, portN := portStarted s.settings.guardN s.line.portN
      portS := portStarted s.settings.guardS s.line.portS }
    localConverter := converterStarted s.localConverter
    directory := s.directory.map (fun e => { e with waitingTimer := waitingStarted e })
    districts := mapRecords (fun r => { r with stepTimer := .running r.stepPeriod }) s.districts
    backlog := ⟨.full (.start cause), none⟩
      :: (s.alarms.filter (·.reportOwed)).map (fun r => ⟨.reference (.alarm r.key), none⟩) }

theorem readied_eq (cause : RestartCause) (s : State) :
    restartEntries cause { startSteps (startLocal (startWaiting (startPorts s))) with unit := .ready }
      = readied cause s := by
  rw [startLocal_eq]
  rfl

/-- R174: the completion of a restart, and the closes that it resumes. -/
theorem restartComplete_eq {s : State} {cause : RestartCause} (h : s.unit = .restarting cause) :
    exec .restartComplete s = .next (holderNumbers.foldl closureResumed (readied cause s)) := by
  change execRestartComplete s = _
  rw [execRestartComplete, whenArises_acts _ _ (isRestarting_of_restarting h), completeRestart, h]
  simp only [readied_eq, resumeClosure_eq_closureResumed]

/-- R42: with no holder loaded no close is resumed. -/
theorem closureResumed_of_unloaded {s : State} (h : ∀ k, s.holder k = none) (l : List Nat) :
    l.foldl closureResumed s = s := by
  induction l with
  | nil => rfl
  | cons k l ih => rw [List.foldl_cons, closureResumed, h k, ih]

/-- Settles O5: the supply's application begins afresh, and the completion of that restart finds no record that it would
change. -/
theorem powerOnRestarts : Obligations.PowerOnRestarts := by
  intro s
  refine ⟨rfl, ?_⟩
  have hunloaded : ∀ k, (readied .power (atFreshRestart .power s)).holder k = none := recordGet_replicate_none 8
  rw [restartComplete_eq rfl, closureResumed_of_unloaded hunloaded]
  exact congrArg Host.Outcome.next (congrArg
    (fun w => { State.reset with pending := s.pending, freeCount := s.freeCount, districts := w })
    (mapRecords_replicate_none 6 _))

end Sys2Proof.Restarts
end

section
/-! SUPPORT. The statement about the completion of a restart: what the resumed closes leave of the unit, the backlog's
head and the timers. -/

namespace Sys2Proof.Restarts

open Sys2Proof Sys2Proof.Machine Sys2Proof.Claims Sys2Proof.Laws Sys2Proof.Setpoints

/-! ### Step timers (R78) -/

/-- No district's step timer has changed. -/
def StepTimersKept (s t : State) : Prop := ∀ d, (t.district d).map (·.stepTimer) = (s.district d).map (·.stepTimer)

namespace StepTimersKept

variable {s t u : State}

theorem refl (s : State) : StepTimersKept s s := fun _ => rfl

theorem trans (h : StepTimersKept s t) (k : StepTimersKept t u) : StepTimersKept s u := fun d => (k d).trans (h d)

theorem of_districts (e : t.districts = s.districts) : StepTimersKept s t := fun d => by
  rw [district_of_districts e d]

theorem foldl {α : Type} {f : State → α → State} (hf : ∀ s x, StepTimersKept s (f s x)) (l : List α) (s : State) :
    StepTimersKept s (l.foldl f s) := by
  induction l generalizing s with
  | nil => exact refl s
  | cons x l ih => exact (hf s x).trans (ih _)

theorem putDistrict {d : Nat} {r x : District} (hr : s.district d = some r) (hx : x.stepTimer = r.stepTimer) :
    StepTimersKept s (s.putDistrict d x) := fun k => by
  by_cases hk : k = d
  · rw [hk, putDistrict_self x hr, hr, Option.map_some, Option.map_some, hx]
  · rw [putDistrict_district_ne hk]

/-- R92 to R96: the clamp and the send decision write the active setpoint and the set-failed flag alone. -/
theorem writeActive (d v : Nat) (s : State) : StepTimersKept s (writeActive d v s) := by
  unfold Machine.writeActive
  split
  · exact refl s
  · rename_i r hr
    split
    · exact refl s
    · exact (putDistrict (x := { r with active := some v }) hr rfl).trans (of_districts (handActive_districts _ d v))

theorem setFailed (d a : Nat) (s : State) : StepTimersKept s (setFailed true d a s) := by
  have hraised := of_districts (raiseAlarm_districts s (alarmKey .orderFailed d))
  unfold Machine.setFailed
  simp only [if_true]
  split
  · exact hraised
  · rename_i r hr
    split
    · exact hraised.trans (putDistrict hr rfl)
    · exact hraised

theorem sendDecision (d : Nat) (s : State) : StepTimersKept s (sendDecision d s) := by
  unfold Machine.sendDecision
  split
  · exact refl s
  · split
    · exact refl s
    · split
      · unfold issueSet
        split
        · exact refl s
        · split
          · exact setFailed d _ s
          · exact of_districts (placeSet_districts s _ _ _)
      · exact refl s

theorem clampActive (d : Nat) (s : State) : StepTimersKept s (clampActive d s) := by
  unfold Machine.clampActive
  split
  · exact refl s
  · rename_i r _
    split
    · exact refl s
    · split
      · refine trans ?_ (sendDecision d _)
        split
        · exact (writeActive d r.supplyLimit s).trans (of_districts (raiseAlarm_districts _ _))
        · exact writeActive d r.supplyLimit s
      · exact refl s

/-- R95: a supply formed afresh. -/
theorem recomputeDistrict (s : State) (d : Nat) : StepTimersKept s (recomputeDistrict s d) := by
  unfold Machine.recomputeDistrict
  split
  · exact refl s
  · rename_i r hr
    dsimp only
    split
    · exact refl s
    · refine trans (trans (putDistrict (x := { r with
        supplyLimit := (supplyOf d r.drop s).1, supplied := (supplyOf d r.drop s).2 }) hr rfl) ?_) (clampActive d _)
      split
      · exact refl _
      · exact of_districts (supplyStateChanged_districts _ _ _)

theorem handOutletSet (k : Nat) (set : DistrictSet) (s : State) : StepTimersKept s (handOutletSet k set s) :=
  (of_districts (writeOutletSet_districts s k set)).trans (foldl recomputeDistrict districtNumbers _)

theorem formOutletSet (k : Nat) (s : State) : StepTimersKept s (formOutletSet k s) := by
  unfold Machine.formOutletSet
  split
  · exact refl s
  · dsimp only
    split
    · exact refl s
    · exact handOutletSet k _ (s.putRouting k _)

theorem closeOutcome (k v : Nat) (success : Bool) (s : State) : StepTimersKept s (closeOutcome k v success s) := by
  unfold Machine.closeOutcome
  split
  · exact refl s
  · split
    · exact refl s
    · exact (formOutletSet k (s.putRouting k _)).trans (of_districts (raiseAlarm_districts _ _))

theorem setSequence (k : Nat) (l : List Closure) (n : Option Nat) (s : State) : StepTimersKept s (setSequence k l n s) :=
  of_districts (setSequence_districts s k l n)

/-- R56: the entries of a closure sequence taken from the front. -/
theorem handFront (k a : Nat) (l : List Closure) (s : State) : StepTimersKept s (handFront k a l s) := by
  induction l generalizing s with
  | nil => exact setSequence k _ _ s
  | cons c l ih =>
    unfold Machine.handFront
    split
    · exact refl s
    · split
      · exact ih s
      · split
        · exact ((setSequence k _ _ s).trans (closeOutcome k _ _ _)).trans (ih _)
        · exact (setSequence k _ _ s).trans (of_districts (placeClose_districts _ _ _ _))

theorem handOver (k : Nat) (s : State) : StepTimersKept s (handOver k s) := by
  unfold Machine.handOver
  split
  · split
    · exact refl s
    · exact handFront k _ _ s
  · exact refl s

theorem resumeClosure (s : State) (k : Nat) : StepTimersKept s (resumeClosure s k) := by
  unfold Machine.resumeClosure
  split
  · exact refl s
  · exact (handOver k s).trans (of_districts (serve_districts _ _))

end StepTimersKept

/-! ### The unit, the backlog's head and the waiting timers -/

/-- A report in full at the head of the backlog, no part of it sent. -/
def HeadedBy (r : FullReport) (s : State) : Prop := s.backlog.head? = some ⟨.full r, none⟩

section Headed

variable {r : FullReport} {s t : State}

/-- Entries join the tail. -/
theorem headedBy_append {l : List Entry} (e : t.backlog = s.backlog ++ l) (h : HeadedBy r s) : HeadedBy r t := by
  obtain ⟨rest, hrest⟩ := List.head?_eq_some_iff.mp h
  rw [HeadedBy, e, hrest]
  rfl

theorem headedBy_addEntry (form : EntryForm) (h : HeadedBy r s) : HeadedBy r (addEntry form s) := by
  unfold addEntry
  split
  · exact headedBy_append rfl h
  · exact h

theorem headedBy_oweReference (ref : RecordRef) (h : HeadedBy r s) : HeadedBy r (oweReference ref s) := by
  unfold oweReference
  split
  · exact h
  · exact headedBy_addEntry _ h

theorem headedBy_oweAlarm (key : AlarmKey) (h : HeadedBy r s) : HeadedBy r (oweAlarm key s) := by
  unfold oweAlarm
  split
  · exact h
  · split
    · exact headedBy_append rfl h
    · exact h

/-- R166: an alarm record's removal turns entries full that refer to it, and no other. -/
theorem headedBy_removeAlarm (q : Alarm) (h : HeadedBy r s) : HeadedBy r (removeAlarm q s) := by
  obtain ⟨rest, hrest⟩ := List.head?_eq_some_iff.mp h
  simp only [HeadedBy, removeAlarm, hrest, List.map_cons, List.head?_cons, beq_iff_eq]
  exact congrArg some (if_neg nofun)

theorem headedBy_yard (k : Yard s t) (h : HeadedBy r s) : HeadedBy r t := by
  induction k with
  | trans _ _ ih ih' => exact ih' (ih h)
  | outlet s k set => cases k <;> exact h
  | full s q => exact headedBy_addEntry _ h
  | reference s ref => exact headedBy_oweReference ref h
  | alarmEntry s key => exact headedBy_oweAlarm key h
  | alarmEvict s q key => exact headedBy_removeAlarm q h
  | alarmGone s q => exact headedBy_removeAlarm q h
  | _ => exact h

end Headed

/-- The unit's state and every station's waiting timer stand as they stood. -/
structure WaitingKept (s t : State) : Prop where
  unit : t.unit = s.unit
  waiting : ∀ a, (t.station a).map (·.waitingTimer) = (s.station a).map (·.waitingTimer)

namespace WaitingKept

variable {s t u : State}

theorem trans (h : WaitingKept s t) (k : WaitingKept t u) : WaitingKept s u :=
  ⟨k.unit.trans h.unit, fun a => (k.waiting a).trans (h.waiting a)⟩

theorem of_directory (hu : t.unit = s.unit) (hd : t.directory = s.directory) : WaitingKept s t :=
  ⟨hu, fun a => by rw [State.station, hd, ← State.station]⟩

theorem of_records (h : RecordsOnly s t) : WaitingKept s t :=
  of_directory (congrArg State.unit h :) (congrArg State.directory h :)

/-- An entry's slot and pending list may change. -/
theorem modStation (a : Nat) {f : Station → Station} (s : State)
    (hf : ∀ e, f e = { e with slot := (f e).slot, pendingList := (f e).pendingList }) :
    WaitingKept s (s.modStation a f) := by
  refine ⟨rfl, fun k => ?_⟩
  have haddress : ∀ e, (f e).address = e.address := fun e => by rw [hf e]
  rw [State.modStation, State.station, find?_map_address _ _ _ _ haddress, ← State.station, Option.map_map]
  congr 1
  funext e
  simp only [Function.comp_apply]
  split
  · rw [hf e]
  · rfl

theorem oweAlarm (key : AlarmKey) (s : State) : WaitingKept s (oweAlarm key s) := by
  unfold Machine.oweAlarm
  split_ifs <;> exact of_directory rfl rfl

theorem of_yard (k : Yard s t) : WaitingKept s t := by
  induction k with
  | trans _ _ ih ih' => exact ih.trans ih'
  | station s a f honly => exact modStation a s honly
  | outlet s k set => cases k <;> exact of_directory rfl rfl
  | full s r => exact of_records (.oweFull r s)
  | reference s ref => exact of_records (.oweReference ref s)
  | alarmEntry s key => exact oweAlarm key s
  | _ => exact of_directory rfl rfl

end WaitingKept

/-! ### The completion (R174) -/

/-- R120: at the completion the waiting timer of every station starts. -/
theorem readied_waiting (cause : RestartCause) (s : State) (a : Nat) :
    ((readied cause s).station a).map (·.waitingTimer) = (s.station a).map waitingStarted := by
  simp only [readied, State.station, List.find?_map, Option.map_map]
  rfl

/-- R78: at the completion the step timer of every district starts. -/
theorem readied_stepTimer (cause : RestartCause) (s : State) (d : Nat) :
    ((readied cause s).district d).map (·.stepTimer) = (s.district d).map (fun r => .running r.stepPeriod) := by
  rw [readied, State.district, recordGet_mapRecords, Option.map_map]
  rfl

/-- Settles O7: the completion readies the unit and resumes the closes, which leave the unit's state, the head of the
backlog and the timers that it has started. -/
theorem restartCompletes : Obligations.RestartCompletes := by
  intro s cause h
  have hrun : Yard (readied cause s) (holderNumbers.foldl closureResumed (readied cause s)) := by
    rw [← resumeClosure_eq_closureResumed]
    exact Yard.foldl (fun k => Directory.resumeClosure_yard k) holderNumbers (.refl _)
  have hsteps : StepTimersKept (readied cause s) (holderNumbers.foldl closureResumed (readied cause s)) := by
    rw [← resumeClosure_eq_closureResumed]
    exact .foldl .resumeClosure holderNumbers _
  obtain ⟨hunit, hwaiting⟩ := WaitingKept.of_yard hrun
  exact ⟨_, _, restartComplete_eq h, recordGet_mapRecords _ s.districts, rfl, hunit, headedBy_yard hrun rfl,
    fun a => (hwaiting a).trans (readied_waiting cause s a), fun d => (hsteps d).trans (readied_stepTimer cause s d)⟩

end Sys2Proof.Restarts
end

section
/-! SUPPORT. The statement about the state after reset. -/

namespace Sys2Proof.Restarts

open Sys2Proof Sys2Proof.Machine Sys2Proof.Claims Sys2Proof.Laws

theorem reset_holder (h : Nat) : State.reset.holder h = none := recordGet_replicate_none 8 h

theorem reset_district (d : Nat) : State.reset.district d = none := recordGet_replicate_none 6 d

/-- R139, R150: after reset no buffer is in use. -/
theorem reset_buffersInUse : State.reset.buffersInUse = [] := rfl

theorem reset_buffersConserved : BuffersConserved State.reset where
  general := by rw [reset_buffersInUse]; rfl
  reserve := by rw [reset_buffersInUse]; rfl
  charges := fun p => by
    rw [reset_buffersInUse]
    cases p <;> rfl

/-- R162, R166: after reset the Alarm List is empty, and the backlog holds the START entry. -/
theorem reset_recordsConsistent : RecordsConsistent State.reset where
  alarmsFit := Nat.zero_le 32
  alarmsDistinct := List.nodup_nil
  counts := List.forall_mem_nil _
  backlogFits := by decide
  oneReference := List.nodup_nil
  owed := fun _ _ => rfl
  partsFit := List.forall_mem_singleton.mpr fun _ h => nomatch h

theorem reset_directoryConsistent : DirectoryConsistent State.reset where
  fits := Nat.zero_le 48
  strangersFit := Nat.zero_le 8
  distinct := List.nodup_nil
  listsFit := List.forall_mem_nil _

theorem reset_opensAllowed : OpensAllowed State.reset where
  automaticNeverOpens := List.forall_mem_nil _
  stationsDistinct := fun h _ _ _ hr => absurd ((reset_holder h).symm.trans hr) nofun
  noForbiddenOpen := fun h _ _ _ _ hr => absurd ((reset_holder h).symm.trans hr) nofun

theorem reset_activeWithinLimits : ActiveWithinLimits State.reset :=
  fun d _ _ hr => absurd ((reset_district d).symm.trans hr) nofun

/-- R100: after reset the clock is INVALID and there is no book. -/
theorem reset_hoursConsistent : HoursConsistent State.reset where
  oneOpen := fun hvalid => absurd hvalid Bool.false_ne_true
  noBook := fun _ => ⟨rfl, rfl⟩
  previousClosed := fun b hbook => absurd hbook (Option.some_ne_none b).symm
  stocksMeet := fun b _ hbook => absurd hbook (Option.some_ne_none b).symm

/-- Settles O60: after reset the lists and tables that the invariants speak of are empty, but for the START entry. -/
theorem resetIsConsistent : Obligations.ResetIsConsistent :=
  ⟨reset_buffersConserved, reset_recordsConsistent, reset_directoryConsistent, reset_opensAllowed,
    reset_activeWithinLimits, reset_hoursConsistent⟩

end Sys2Proof.Restarts
end

section
/-! SUPPORT. The statements about LOAD-SETTINGS and RESET. -/

namespace Sys2Proof.Management

open Sys2Proof Sys2Proof.Machine Sys2Proof.Claims Sys2Proof.Laws Sys2Proof.Points

/-! ### RESET (R173) -/

theorem restartKindOf_eq (v : Nat) :
    restartKindOf v = if 1 < v then none else some (if v = 0 then .warm else .cold) := by
  match v with
  | 0 => rfl
  | 1 => rfl
  | v + 2 => rw [if_pos (by omega)]; rfl

theorem reset_format_iff (f : List Byte) :
    (f.length != 1 || (restartKindOf (octetAt f 0)).isNone) = true ↔ f.length ≠ 1 ∨ 1 < octetAt f 0 := by
  rw [restartKindOf_eq, Bool.or_eq_true, bne_iff_ne]
  split <;> simp [*]

/-- Settles O51: the one check fails, or the kind carried is held. -/
theorem resetActs : Obligations.ResetActs := by
  intro f r s u h
  have answer : ∀ {result : ResultCode} {v : State}, resetRequest f u = ⟨result, [], v⟩ →
      exec .reset s = .next (answered r 21 result [] v) := request_of_performed h (by decide) (by decide)
  have hformat := reset_format_iff f
  dsimp only
  split
  · rename_i hf
    exact answer (judge_fails (firstFailure_here (hformat.mpr hf)) _ _)
  · rename_i hf
    have hkind := restartKindOf_eq (octetAt f 0)
    rw [if_neg (not_or.mp hf).2] at hkind
    refine answer ((judge_accepts (firstFailure_next (mt hformat.mp hf)) _ _).trans ?_)
    rw [hkind]
    rfl

/-! ### LOAD_SETTINGS (R171, R172) -/

theorem allBits_iff (f : List Byte) (i : Nat) : allBits (f.drop i) = true ↔ bitsFrom f i := by
  simp [allBits, bitsFrom]

theorem poolMode_of_code {v : Nat} {x : PoolMode} (h : poolModeOf v = some x) : x.code = v := by
  unfold poolModeOf at h
  split at h <;> cases h <;> rfl

theorem ratio_of_code {v : Nat} {x : Ratio} (h : ratioOf v = some x) : x.code = v := by
  unfold ratioOf at h
  split at h <;> cases h <;> rfl

theorem settingsOf_isSome_iff (f : List Byte) :
    (settingsOf f).isSome = true ↔ poolModeOf (octetAt f 5) ≠ none ∧ ratioOf (octetAt f 9) ≠ none ∧
      ratioOf (octetAt f 10) ≠ none ∧ ratioOf (octetAt f 11) ≠ none := by
  constructor
  · intro h
    unfold settingsOf at h
    split at h
    · simp [*]
    · cases h
  · rintro ⟨hmode, ho, hn, hs⟩
    obtain ⟨mode, hmode⟩ := Option.ne_none_iff_exists'.mp hmode
    obtain ⟨o, ho⟩ := Option.ne_none_iff_exists'.mp ho
    obtain ⟨n, hn⟩ := Option.ne_none_iff_exists'.mp hn
    obtain ⟨x, hs⟩ := Option.ne_none_iff_exists'.mp hs
    simp [settingsOf, hmode, ho, hn, hs]

theorem loadSettings_format_iff (f : List Byte) :
    (f.length != 34 || (settingsOf f).isNone || !allBits (f.drop 14)) = true ↔
      ¬ (f.length = 34 ∧ poolModeOf (octetAt f 5) ≠ none ∧ ratioOf (octetAt f 9) ≠ none ∧
        ratioOf (octetAt f 10) ≠ none ∧ ratioOf (octetAt f 11) ≠ none ∧ bitsFrom f 14) := by
  have hcoded := settingsOf_isSome_iff f
  rw [Option.isSome_iff_ne_none] at hcoded
  rw [← allBits_iff, Bool.or_eq_true, Bool.or_eq_true, Option.isNone_iff_eq_none, bne_iff_ne, Bool.not_eq_true']
  cases allBits (f.drop 14) <;> simp; tauto

/-- An octet holds no value over 255. -/
theorem octetAt_le (f : List Byte) (i : Nat) : octetAt f i ≤ 255 := Nat.le_of_lt_succ (BitVec.isLt _)

theorem loadSettings_range_iff (f : List Byte) :
    badSettings f = true ↔ ¬ ((10000 ≤ field f 0 2 ∧ field f 0 2 ≤ 30000) ∧ octetAt f 2 ≤ 23 ∧
      mayBePoint (octetAt f 3) ∧ mayBePoint (octetAt f 4) ∧ (4 ≤ octetAt f 6 ∧ octetAt f 6 ≤ 80) ∧
      (octetAt f 6 < octetAt f 7 ∧ octetAt f 7 ≤ 88) ∧ (1 ≤ octetAt f 8 ∧ octetAt f 8 ≤ 60) ∧
      5 ≤ octetAt f 12 ∧ 5 ≤ octetAt f 13) := by
  have hguardN := octetAt_le f 12
  have hguardS := octetAt_le f 13
  simp only [badSettings, outside, badPoint, mayBePoint, Bool.or_eq_true, decide_eq_true_eq]
  omega

/-- R171: the fourteen report enables stand after the six branch-direction enables. -/
theorem enables_eq (f : List Byte) :
    [isOn f 14, isOn f 15, isOn f 16, isOn f 17, isOn f 18, isOn f 19]
        ++ (Vector.ofFn (fun i : Fin 14 => isOn f (20 + i.val))).toList
      = (List.range 20).map (fun i => octetAt f (14 + i) == 1) := rfl

/-- R171, R172: the record that the fields carry. -/
theorem settingsOf_fields {f : List Byte} {x : Settings} (h : settingsOf f = some x) :
    x.declaredCv = field f 0 2 ∧ x.startHour = octetAt f 2 ∧ x.barometerPoint = pointOr (octetAt f 3) ∧
      x.calorimeterPoint = pointOr (octetAt f 4) ∧ x.poolMode.code = octetAt f 5 ∧ x.holdMark = octetAt f 6 ∧
      x.goMark = octetAt f 7 ∧ x.holdDuration = octetAt f 8 ∧ x.ratioO.code = octetAt f 9 ∧
      x.ratioN.code = octetAt f 10 ∧ x.ratioS.code = octetAt f 11 ∧ x.guardN = octetAt f 12 ∧
      x.guardS = octetAt f 13 ∧
      [x.enables.officeToN, x.enables.officeToS, x.enables.nToS, x.enables.sToN, x.enables.nToOffice,
        x.enables.sToOffice] ++ x.reportEnables.toList = (List.range 20).map (fun i => octetAt f (14 + i) == 1) := by
  unfold settingsOf at h
  split at h
  · rename_i hmode ho hn hs
    cases h
    exact ⟨rfl, rfl, rfl, rfl, poolMode_of_code hmode, rfl, rfl, rfl, ratio_of_code ho, ratio_of_code hn,
      ratio_of_code hs, rfl, rfl, enables_eq f⟩
  · cases h

/-- Settles O33: the first of the two checks that fails, or the record carried, then the holding test. -/
theorem loadSettingsActs : Obligations.LoadSettingsActs := by
  intro f r s u h
  have answer : ∀ {result : ResultCode} {v : State}, loadSettings f u = ⟨result, [], v⟩ →
      exec .loadSettings s = .next (answered r 1 result [] v) := request_of_performed h (by decide) (by decide)
  have hformat := loadSettings_format_iff f
  have hrange := loadSettings_range_iff f
  refine ⟨fun hf => answer (judge_fails (firstFailure_here (hformat.mpr hf)) _ _), fun hf hw => ?_, fun hf hw => ?_⟩
  · exact answer (judge_fails ((firstFailure_next (mt hformat.mp (not_not.mpr hf))).trans
      (firstFailure_here (hrange.mpr hw))) _ _)
  · have ⟨_, hmode, ho, hn, hs, _⟩ := hf
    obtain ⟨x, hx⟩ := Option.isSome_iff_exists.mp ((settingsOf_isSome_iff f).mpr ⟨hmode, ho, hn, hs⟩)
    refine ⟨x, answer ((judge_accepts ((firstFailure_next (mt hformat.mp (not_not.mpr hf))).trans
      (firstFailure_next (mt hrange.mp (not_not.mpr hw)))) _ _).trans ?_), settingsOf_fields hx⟩
    simp only [hx]
    rfl

end Sys2Proof.Management
end

section
/-! SUPPORT. That a freeing leaves the telegrams in reception, with every operation of the pool in it. -/

namespace Sys2Proof.Reception

open Sys2Proof Sys2Proof.Machine Sys2Proof.Laws

/-- The telegrams in reception are those that were there. -/
def ReceptionKept (s t : State) : Prop := t.line.received = s.line.received

namespace ReceptionKept

variable {s t u : State}

theorem refl (s : State) : ReceptionKept s s := rfl

theorem trans (h : ReceptionKept s t) (k : ReceptionKept t u) : ReceptionKept s u := Eq.trans k h

theorem of_line (e : t.line = s.line) : ReceptionKept s t := congrArg Line.received e

theorem foldl {α : Type} {f : State → α → State} (hf : ∀ x s, ReceptionKept s (f s x)) (l : List α) (s : State) :
    ReceptionKept s (l.foldl f s) := by
  induction l generalizing s with
  | nil => exact refl s
  | cons x l ih => exact (hf x s).trans (ih _)

/-! ### Takings and holding (R151, R158 to R161) -/

theorem setCharge (l : Line) (p : Port) (x : Nat) : (l.setCharge p x).received = l.received := by cases p <;> rfl

theorem enqueue (p : Port) (urgent : Bool) (x : Telegram) (s : State) : ReceptionKept s (enqueue p urgent x s) :=
  modPort_received s p _

theorem releaseBuffer (b : Buffer) (s : State) : ReceptionKept s (releaseBuffer b s) := by
  obtain ⟨cls, _ | p⟩ := b
  · cases cls <;> rfl
  · cases cls <;> exact setCharge _ p _

theorem takeGeneral {c : Option Port} {b : Buffer} (h : Machine.takeGeneral c s = some (b, t)) : ReceptionKept s t := by
  unfold Machine.takeGeneral at h
  split at h
  · cases h
    cases c with
    | none => rfl
    | some p => exact setCharge _ p _
  · cases h

theorem takeUrgent {b : Buffer} (h : Machine.takeUrgent s = some (b, t)) : ReceptionKept s t := by
  unfold Machine.takeUrgent at h
  split at h
  · rename_i hg
    cases h
    exact takeGeneral hg
  · split at h
    · cases h
      rfl
    · cases h

theorem takeUrgentMany {n : Nat} {bs : List Buffer} (h : Machine.takeUrgentMany n s = some (bs, t)) :
    ReceptionKept s t := by
  induction n generalizing s bs with
  | zero =>
    cases h
    rfl
  | succ n ih =>
    unfold Machine.takeUrgentMany at h
    split at h
    · cases h
    · rename_i hv
      split at h
      · cases h
      · rename_i hw
        cases h
        exact (takeUrgent hv).trans (ih hw)

theorem controlCopy (kind : Nat) (body : List Byte) (p : Port) (s : State) :
    ReceptionKept s (controlCopy kind body p s) := by
  unfold Machine.controlCopy
  split
  · exact refl s
  · rename_i hv
    exact (takeUrgent hv).trans (enqueue _ _ _ _)

theorem enterHolding (s : State) : ReceptionKept s (enterHolding s) :=
  (controlCopy _ _ .n { s with line := { s.line with holding := .holding } }).trans (controlCopy _ _ .s _)

theorem leaveHolding (s : State) : ReceptionKept s (leaveHolding s) := by
  have hleft := (controlCopy kindGo [] .n
    { s with line := { s.line with holding := .notHolding, repeatTimer := .stopped } }).trans (controlCopy kindGo [] .s _)
  unfold Machine.leaveHolding
  dsimp only
  split
  · exact trans hleft (enterHolding _)
  · exact hleft

theorem holdingTest (s : State) : ReceptionKept s (holdingTest s) := by
  unfold Machine.holdingTest
  split <;> split
  · exact enterHolding s
  · exact refl s
  · exact leaveHolding s
  · exact refl s

/-! ### Sends and reports (R66, R67, R167) -/

theorem queueCopies (o : Order) (n : Nat) (l : List (Port × Buffer)) (s : State) :
    ReceptionKept s (queueCopies o n l s).2 := by
  induction l generalizing s with
  | nil => exact refl s
  | cons x l ih =>
    unfold Machine.queueCopies
    split
    · exact (enqueue _ _ _ s).trans (ih _)
    · exact ih s

theorem makeSend (e : Station) (o : Order) (bs : List Buffer) (s : State) : ReceptionKept s (makeSend e o bs s).2 :=
  queueCopies { o with sends := o.sends + 1 } s.serial ((copyPorts e.branch).zip bs) (nextSerial s)

theorem takeForSend {a : Nat} {e : Station} {o : Order} {bs : List Buffer}
    (h : Machine.takeForSend a s = some (e, o, bs, t)) : ReceptionKept s t := by
  obtain ⟨he, ho, -⟩ := takeForSend_some h
  rw [takeForSend_of_waiting he ho] at h
  obtain ⟨⟨cs, v⟩, hv, hx⟩ := Option.map_eq_some_iff.mp h
  cases hx
  exact takeUrgentMany hv

theorem takeForReport {c : ReportContent} {b : Buffer} (h : Machine.takeForReport c s = some (b, t)) :
    ReceptionKept s t := by
  unfold Machine.takeForReport at h
  split at h
  · exact takeUrgent h
  · exact takeGeneral h

theorem retireHead (e : Entry) (rest : List Entry) (s : State) : ReceptionKept s (retireHead e rest s) :=
  of_line (retireHead_line s e rest)

theorem sendPart {test : Bool} (h : Machine.sendPart test s = some t) : ReceptionKept s t := by
  unfold Machine.sendPart at h
  split at h
  · cases h
  · dsimp only at h
    split at h
    · cases h
      exact retireHead _ _ s
    · split at h
      · cases h
      · rename_i v hv
        have htaken : ReceptionKept s (if test = true then Machine.holdingTest v else v) := by
          split
          · exact (takeForReport hv).trans (holdingTest v)
          · exact takeForReport hv
        have hqueued := fun urgent x => htaken.trans (enqueue .o urgent x _)
        split at h
        · cases h
          exact (hqueued _ _).trans (retireHead _ _ _)
        · cases h
          exact hqueued _ _

theorem sendReports (test : Bool) (n : Nat) (s : State) : ReceptionKept s (sendReports test n s) := by
  induction n generalizing s with
  | zero => exact refl s
  | succ n ih =>
    unfold Machine.sendReports
    split
    · exact refl s
    · split
      · rename_i hv
        exact (sendPart hv).trans (ih _)
      · unfold claimForBacklog
        split <;> exact refl s

/-! ### Claims and freeings (R153, R154) -/

theorem offerClaim {c : Claim} {bs : List Buffer} (h : Machine.offerClaim c s = some (bs, t)) : ReceptionKept s t := by
  cases c with
  | send a =>
    simp only [Machine.offerClaim] at h
    split at h
    · cases h
    · rename_i e o cs v hv
      have hmade : (Machine.makeSend e o cs (withdrawClaim (.send a) v)).2 = t := congrArg Prod.snd (Option.some.inj h)
      rw [← hmade]
      exact (takeForSend hv).trans (makeSend e o cs (withdrawClaim (.send a) v))
  | backlog =>
    simp only [Machine.offerClaim] at h
    split at h
    · cases h
    · rename_i v hv
      cases h
      exact (sendPart hv).trans (sendReports _ _ (withdrawClaim .backlog v))

theorem offerPass (l : List Claim) (s : State) : ReceptionKept s (offerPass l s).2 := by
  induction l generalizing s with
  | nil => exact refl s
  | cons c l ih =>
    unfold Machine.offerPass
    split
    · split
      · exact ih s
      · rename_i hv
        exact (offerClaim hv).trans (ih _)
      · rename_i hv
        exact offerClaim hv
    · exact ih s

theorem freeing (n : Nat) (b : Buffer) (s : State) : ReceptionKept s (freeing n b s) := by
  induction n generalizing b s with
  | zero => exact (releaseBuffer b s).trans (holdingTest _)
  | succ n ih =>
    have hoffered := (releaseBuffer b s).trans (offerPass (Machine.releaseBuffer b s).claims _)
    exact (hoffered.trans (foldl ih _ _)).trans (holdingTest _)

theorem freeBuffer (b : Buffer) (s : State) : ReceptionKept s (freeBuffer b s) := freeing _ b s

end ReceptionKept

end Sys2Proof.Reception
end

section
/-! SUPPORT. The statement about ANSWERs, and the office's telegrams that no command takes. -/

namespace Sys2Proof.Reception

open Sys2Proof Sys2Proof.Machine Sys2Proof.Claims Sys2Proof.Laws

/-! ### The oldest telegram of a port (R133, R135) -/

theorem firstOfPort_eq (p : Port) (l : List Received) :
    firstOfPort p l = (l.find? (fun r => r.port == p)).map (fun r => (r, l.eraseP (fun r => r.port == p))) := by
  induction l with
  | nil => rfl
  | cons r l ih =>
    by_cases h : r.port = p
    · simp [firstOfPort, h]
    · have hne : (r.port == p) = false := beq_false_of_ne h
      simp only [firstOfPort, if_neg h, ih, Option.map_map, List.find?_cons, List.eraseP_cons, hne, cond_false]
      rfl

theorem takeReceived_eq (p : Port) (s : State) :
    takeReceived p s = (s.line.received.find? (fun r => r.port == p)).map (fun r =>
      (r, { s with line := { s.line with received := s.line.received.eraseP (fun r => r.port == p) } })) := by
  rw [takeReceived, firstOfPort_eq, Option.map_map]
  rfl

section Taken

variable {p : Port} {s u : State} {r : Received}

theorem takeReceived_length (h : takeReceived p s = some (r, u)) :
    s.line.received.length = u.line.received.length + 1 := by
  obtain ⟨⟨x, rest⟩, hx, he⟩ := Option.map_eq_some_iff.mp h
  cases he
  exact (Pool.firstOfPort_perm hx).length_eq

theorem takeReceived_unit (h : takeReceived p s = some (r, u)) : u.unit = s.unit :=
  (congrArg State.unit (Part.takeReceived h) :)

end Taken

/-! ### ANSWERs (R169) -/

theorem result_code (x : ResultCode) : x.code = results.idxOf x := by cases x <;> rfl

theorem queueAnswer_eq_answerJoined (r : Received) (tag : Tag) (code : Byte) (result : ResultCode) (data : List Byte)
    (s : State) : queueAnswer r.buffer tag code result data s = answerJoined r code result data tag s := by
  rw [queueAnswer, result_code]
  rfl

/-! ### One turn of the drain (R135, R169; log 3) -/

/-- R169: a body names a request by its first octet. -/
theorem requestCode_eq_none_iff (body : List Byte) :
    requestCode body = none ↔ ¬ (body ≠ [] ∧ 1 ≤ octetAt body 0 ∧ octetAt body 0 ≤ 21) := by
  cases body with
  | nil => simp [requestCode]
  | cons b rest => simp [requestCode, octetAt]

theorem headD_eq_octet (body : List Byte) : body.headD 0 = octet (octetAt body 0) := by
  cases body with
  | nil => rfl
  | cons b rest => simp [octet, octetAt]

theorem isReady_iff (s : State) : isReady s = true ↔ s.unit = .ready := by
  unfold isReady
  cases s.unit <;> simp

/-- R169: the unit takes requests that are addressed to 240, in READY. -/
theorem notOurs_iff (octets : List Byte) (s : State) :
    (destinationOf octets ≠ ownAddress || !isReady s) = true ↔ ¬ (destinationOf octets = 240 ∧ s.unit = .ready) := by
  rw [Bool.or_eq_true, decide_eq_true_eq, Bool.not_eq_true', ← isReady_iff, not_and_or, Bool.not_eq_true]

section Turn

variable {s t u : State} {r : Received}

theorem drainOne_of_none (h : takeReceived .o s = none) : drainOne s = none := by rw [drainOne, h]

section Taken

variable (h : takeReceived .o s = some (r, u))

include h

theorem drainOne_of_otherKind (hkind : kindOf r.octets ≠ 4) : drainOne s = none := by
  simp only [drainOne, h]
  rw [if_neg hkind]

variable (hkind : kindOf r.octets = 4)

include hkind

theorem drainOne_of_notOurs (ho : ¬ (destinationOf r.octets = 240 ∧ s.unit = .ready)) :
    drainOne s = some (freeBuffer r.buffer u) := by
  simp only [drainOne, h]
  rw [if_pos hkind, if_pos ((notOurs_iff _ _).mpr ho)]

variable (ho : destinationOf r.octets = 240 ∧ s.unit = .ready)

include ho

theorem drainOne_of_request (hrequest : bodyOf r.octets ≠ [] ∧ 1 ≤ octetAt (bodyOf r.octets) 0 ∧
    octetAt (bodyOf r.octets) 0 ≤ 21) : drainOne s = none := by
  simp only [drainOne, h]
  rw [if_pos hkind, if_neg (mt (notOurs_iff _ _).mp (not_not.mpr ho))]
  cases hcode : requestCode (bodyOf r.octets) with
  | some _ => rfl
  | none => exact absurd hrequest ((requestCode_eq_none_iff _).mp hcode)

theorem drainOne_of_noRequest (hrequest : ¬ (bodyOf r.octets ≠ [] ∧ 1 ≤ octetAt (bodyOf r.octets) 0 ∧
    octetAt (bodyOf r.octets) 0 ≤ 21)) :
    drainOne s = some (answerJoined r (octet (octetAt (bodyOf r.octets) 0)) .badFormat [] .plain u) := by
  simp only [drainOne, h]
  rw [if_pos hkind, if_neg (mt (notOurs_iff _ _).mp (not_not.mpr ho)), (requestCode_eq_none_iff _).mpr hrequest,
    headD_eq_octet, ← queueAnswer_eq_answerJoined]

end Taken

/-! ### Every turn of the drain -/

/-- Each turn takes a telegram out of reception, and leaves the unit's state. -/
theorem drainOne_takes (h : drainOne s = some t) :
    s.line.received.length = t.line.received.length + 1 ∧ t.unit = s.unit := by
  unfold drainOne at h
  split at h
  · cases h
  · rename_i r u hr
    have hlength := takeReceived_length hr
    have hunit := takeReceived_unit hr
    split at h
    · split at h
      · cases h
        exact ⟨hlength.trans (by rw [ReceptionKept.freeBuffer r.buffer u]),
          (SendsOnly.freeBuffer r.buffer u).unit.trans hunit⟩
      · split at h
        · cases h
        · cases h
          exact ⟨hlength.trans (by rw [queueAnswer, ReceptionKept.enqueue]), hunit⟩
    · cases h

theorem drain_stops (h : drainOne s = none) : drain s = s := by
  unfold drain
  cases s.line.received.length with
  | zero => rfl
  | succ n => simp only [drainOffice, h]

theorem drain_turns (h : drainOne s = some t) : drain s = drain t := by
  rw [drain, (drainOne_takes h).1]
  simp only [drainOffice, h]
  rfl

/-- A drain ends with a telegram that no turn takes, and leaves the unit's state. -/
theorem drain_ends (s : State) : drainOne (drain s) = none ∧ (drain s).unit = s.unit := by
  induction hn : s.line.received.length using Nat.strong_induction_on generalizing s with
  | _ n ih =>
    cases h : drainOne s with
    | none =>
      rw [drain_stops h]
      exact ⟨h, rfl⟩
    | some t =>
      obtain ⟨hlength, hunit⟩ := drainOne_takes h
      rw [drain_turns h, ← hunit]
      exact ih _ (by omega) t rfl

end Turn

/-- R135, R169: a MANAGE that a drain leaves oldest on port O is one that a request step takes. -/
theorem drain_leaves_request {s u : State} {r : Received} (h : takeReceived .o (drain s) = some (r, u))
    (hkind : kindOf r.octets = 4) :
    destinationOf r.octets = 240 ∧ s.unit = .ready ∧ 1 ≤ octetAt (bodyOf r.octets) 0 ∧
      octetAt (bodyOf r.octets) 0 ≤ 21 := by
  obtain ⟨hend, hunit⟩ := drain_ends s
  by_cases ho : destinationOf r.octets = 240 ∧ (drain s).unit = .ready
  · by_cases hrequest : bodyOf r.octets ≠ [] ∧ 1 ≤ octetAt (bodyOf r.octets) 0 ∧ octetAt (bodyOf r.octets) 0 ≤ 21
    · exact ⟨ho.1, hunit ▸ ho.2, hrequest.2⟩
    · exact absurd (hend.symm.trans (drainOne_of_noRequest h hkind ho hrequest)) nofun
  · exact absurd (hend.symm.trans (drainOne_of_notOurs h hkind ho)) nofun

/-! ### The codes of a request's fields (chapter 8, Codes) -/

theorem boolOf_eq (n : Nat) : boolOf n = [false, true][n]? := by
  match n with
  | 0 | 1 | _ + 2 => rfl

theorem poolModeOf_eq (n : Nat) : poolModeOf n = [PoolMode.shared, .partitioned][n]? := by
  match n with
  | 0 | 1 | _ + 2 => rfl

theorem ratioOf_eq (n : Nat) : ratioOf n = [Ratio.strict, .eight, .four, .two][n]? := by
  match n with
  | 0 | 1 | 2 | 3 | _ + 4 => rfl

theorem modeOf_eq (n : Nat) : modeOf n = [Mode.released, .manual, .auto][n]? := by
  match n with
  | 0 | 1 | 2 | _ + 3 => rfl

theorem pointKindOf_eq (n : Nat) : pointKindOf n = [PointKind.level, .count, .period][n]? := by
  match n with
  | 0 | 1 | 2 | _ + 3 => rfl

theorem forwardModeOf_eq (n : Nat) : forwardModeOf n = [ForwardMode.pass, .annotate, .suppress][n]? := by
  match n with
  | 0 | 1 | 2 | _ + 3 => rfl

theorem stationKindOf_eq (n : Nat) :
    stationKindOf n = [StationKind.holder, .governor, .meter, .telltale, .calorimeter, .general][n]? := by
  match n with
  | 0 | 1 | 2 | 3 | 4 | 5 | _ + 6 => rfl

theorem alarmKindOf_eq (n : Nat) : alarmKindOf n = if n = 0 then none else alarmKinds[n - 1]? := by
  match n with
  | 0 | 1 | 2 | 3 | 4 | 5 | 6 | 7 | 8 | 9 | 10 | 11 | 12 | 13 | 14 | _ + 15 => rfl

/-- Settles O32: a turn of the drain takes the oldest telegram of port O or ends it, by its kind, its destination and its
body; and a drain has as many turns as there are telegrams in reception. -/
theorem answersJoinOfficeQueue : Obligations.AnswersJoinOfficeQueue := by
  refine ⟨takeReceived_eq, fun r code result data v => ?_, fun s h => drain_stops (drainOne_of_none h),
    fun s u r h => ⟨fun hkind => drain_stops (drainOne_of_otherKind h hkind),
      fun hkind ho => drain_turns (drainOne_of_notOurs h hkind ho),
      fun hkind ho hrequest => drain_turns (drainOne_of_noRequest h hkind ho hrequest),
      fun hkind ho hrequest => drain_stops (drainOne_of_request h hkind ho hrequest)⟩,
    fun s u r h hkind => drain_leaves_request h hkind,
    fun n => ⟨boolOf_eq n, poolModeOf_eq n, ratioOf_eq n, modeOf_eq n, pointKindOf_eq n, forwardModeOf_eq n,
      stationKindOf_eq n, alarmKindOf_eq n⟩⟩
  rw [answered, queueAnswer_eq_answerJoined]
  rfl

end Sys2Proof.Reception
end

section
/-! SUPPORT. The statement's words about the contents of READ, each tied to the model's. -/

namespace Sys2Proof.Reading

open Sys2Proof Sys2Proof.Machine Sys2Proof.Claims Sys2Proof.Laws Sys2Proof.Reports

/-! ### Words: forms and codes (R149) -/

theorem unstatedState_eq (field : Config.CodeField) (place : Nat) : unstatedState field place = unlisted field place :=
  octetsOf_eq_laid 1 _

theorem remaining_eq_timeLeft (s : State) (i : Nat) (t : Timer) : remaining s i t = timeLeft s i t := by
  cases t with
  | stopped => rfl
  | running d => exact twoOctets_eq _

theorem flagOctet_eq : flagOctet = yes := funext flagOctet_eq_yes

theorem districtSet_eq (d : DistrictSet) : districtSetOctets d = d.toList.flatMap yes := by
  rw [districtSetOctets, flagOctet_eq]

theorem unclockedFlags_eq (q : HourFlags) :
    num 1 q.unclockedValue = flagSet [q.countGap, q.cvDeclared, q.correctionDegraded] := by
  rw [flagSet]
  congr 2
  obtain ⟨countGap, cvDeclared, _, _, degraded⟩ := q
  cases countGap <;> cases cvDeclared <;> cases degraded <;> rfl

theorem poolMode_code (x : PoolMode) : x.code = [PoolMode.shared, .partitioned].idxOf x := by cases x <;> rfl

theorem ratio_code (x : Ratio) : x.code = [Ratio.strict, .eight, .four, .two].idxOf x := by cases x <;> rfl

theorem pointKind_code (x : PointKind) : x.code = [PointKind.level, .count, .period].idxOf x := by cases x <;> rfl

theorem forwardMode_code (x : ForwardMode) : x.code = [ForwardMode.pass, .annotate, .suppress].idxOf x := by
  cases x <;> rfl

theorem stationKind_code (x : StationKind) :
    x.code = [StationKind.holder, .governor, .meter, .telltale, .calorimeter, .general].idxOf x := by cases x <;> rfl

theorem origin_code (x : Origin) : num 1 x.code = num 1 (if x = .office then 0 else 1) := by cases x <;> rfl

/-! ### Words: states without listed codes (log 32) -/

theorem qualityOctet_eq (x : Quality) :
    qualityOctet x = if x = .none then unlisted .quality 0
      else num 1 ([Quality.good, .suspect, .failed, .stale].idxOf x) := by
  cases x with
  | none => exact unstatedState_eq _ _
  | _ => exact small_eq _

theorem localStateOctet_eq (x : LocalState) :
    localStateOctet x = unlisted .localState ([LocalState.disabled, .settling, .ready].idxOf x) := by
  cases x <;> exact unstatedState_eq _ _

theorem confirmedOctet_eq (x : ValveState) :
    confirmedOctet x = if x = .unknown then unlisted .confirmedValve 4
      else num 1 ([ValveState.closed, .opened, .moving, .fault].idxOf x) := by
  cases x with
  | unknown => exact unstatedState_eq _ _
  | _ => exact small_eq _

theorem branchOctet_eq (x : Option Branch) : branchOctet x = branchShown x := by
  obtain _ | _ | _ := x <;> exact unstatedState_eq _ _

theorem livenessOctet_eq (x : Liveness) :
    livenessOctet x = unlisted .liveness ([Liveness.unheard, .live, .silent].idxOf x) := by
  cases x <;> exact unstatedState_eq _ _

theorem faultOctet_eq (x : LineFault) :
    faultOctet x = unlisted .lastFault ([LineFault.none, .badLength, .badCheck, .badKind, .badAddress].idxOf x) := by
  cases x <;> exact unstatedState_eq _ _

theorem holdingOctet_eq (x : Holding) : holdingOctet x = unlisted .holding (if x = .holding then 1 else 0) := by
  cases x <;> exact unstatedState_eq _ _

/-! ### Words: contents of single records (R170) -/

theorem settingsContent_eq (x : Settings) : settingsContent x = settingsShown x := by
  unfold settingsContent settingsShown
  simp only [small_eq, smallOr_eq, twoOctets_eq, flagOctet_eq, poolMode_code, ratio_code,
    List.flatMap_cons, List.flatMap_nil, List.append_nil, List.append_assoc]

theorem pointContent_eq (n : Nat) (p : Point) : pointContent n p = pointShown n p := by
  simp only [pointContent, pointShown, small_eq, twoOctets_eq, twoOctetsOr_eq, wideOr_eq, engineering,
    signedForm_eq_signedOr, pointKind_code, forwardMode_code, qualityOctet_eq]

theorem vapourContent_eq (s : State) : vapourContent s = s.vapour.toList.flatMap (numOr 2) :=
  congrArg s.vapour.toList.flatMap (funext twoOctetsOr_eq)

/-- R13: in READY the settle timer is expired, and its time remaining is free (log 45). -/
theorem settleTimeOctets_eq (s : State) (c : LocalConverter) :
    settleTimeOctets s c =
      if c.running = .ready then laid 2 (Config.expiredTime s.freeCount) else timeLeft s 0 c.settleTimer := by
  unfold settleTimeOctets
  cases c.running with
  | ready => exact octetsOf_eq_laid 2 _
  | _ => exact remaining_eq_timeLeft s 0 _

theorem localContent_eq (s : State) : localContent s = localShown s := by
  simp only [localContent, localShown, flagOctet_eq, small_eq, localStateOctet_eq, settleTimeOctets_eq,
    remaining_eq_timeLeft]

theorem liftOctets_eq :
    liftOctets = fun l => numOr 2 (l.map (·.pickup)) ++ numOr 4 (l.map (·.area)) ++ numOr 2 (l.map (·.pressure)) := by
  funext l
  simp only [liftOctets, twoOctetsOr_eq, wideOr_eq]

theorem holderRecordContent_eq (h : Nat) (r : Holder) : holderRecordContent h r = holderRecordShown h r := by
  unfold holderRecordContent holderRecordShown
  simp only [countForm, small_eq, smallOr_eq, twoOctets_eq, twoOctetsOr_eq,
    wide_eq, wideOr_eq, stockForm_eq, flagOctet_eq, districtSet_eq, stockQuality_code, condition_code, liftOctets_eq,
    List.flatMap_cons, List.flatMap_nil, List.append_nil, List.append_assoc]

theorem profileOctets_eq (bs : List Breakpoint) :
    profileOctets bs = num 2 bs.length ++ bs.flatMap (fun b => num 2 b.minute ++ num 2 b.pressure) := by
  simp only [profileOctets, countForm, twoOctets_eq]

theorem districtContent_eq (d : Nat) (r : District) (s : State) : districtContent d r s = districtShown d r s := by
  unfold districtContent districtShown
  simp only [countForm, small_eq, smallOr_eq, twoOctets_eq, twoOctetsOr_eq, wide_eq,
    flagOctet_eq, mode_code, ← mark_eq_markShown, remaining_eq_timeLeft, profileOctets_eq, List.flatMap_cons,
    List.flatMap_nil, List.append_nil, List.append_assoc]

theorem numOr_none (k : Nat) : numOr k none = absent k := rfl

theorem meterContent_eq (m : Nat) (r : Meter) : meterContent m r = meterShown m r := by
  unfold meterContent meterShown unclockedShown
  cases r.target <;>
    simp only [targetOctets, small_eq, smallOr_eq, twoOctets_eq, wide_eq, stockForm_eq, energyForm_eq, flagOctet_eq,
      numOr_some, numOr_none, unclockedFlags_eq, Nat.cast_zero, Nat.cast_one, List.append_assoc]

/-- R100: the accumulators of an empty Meter Record hold nothing. -/
theorem unclockedOctets_eq :
    unclockedOctets = fun m => m.elim (unclockedShown 0 0 HourFlags.clear) (fun r =>
      unclockedShown r.unclockedVolume r.unclockedEnergy r.unclockedFlags) := by
  funext m
  simp only [unclockedOctets, unclockedShown, stockForm_eq, energyForm_eq, small_eq, numOr_some, ← unclockedFlags_eq]
  cases m <;> rfl

theorem clockContent_eq (s : State) : clockContent s = clockShown s := by
  simp only [clockContent, clockShown, clockStateOctet, unstatedState_eq, twoOctets_eq, wide_eq, flagOctet_eq,
    unclockedOctets_eq]

end Sys2Proof.Reading
end

section
/-! SUPPORT. The statement's words about the contents of READ that list entries, each tied to the model's. -/

namespace Sys2Proof.Reading

open Sys2Proof Sys2Proof.Machine Sys2Proof.Claims Sys2Proof.Laws Sys2Proof.Reports

/-! ### Words: the ordered state of a valve (R43) -/

/-- Whether no order of a list entered after an order. -/
def latestOf (l : List Order) (o : Order) : Bool := l.all (fun q => decide (q.entered ≤ o.entered))

theorem latestOf_iff (l : List Order) (o : Order) : latestOf l o = true ↔ ∀ q ∈ l, q.entered ≤ o.entered := by
  simp [latestOf]

theorem latestOrder_eq_none {l : List Order} (h : latestOrder l = none) : l = [] := by
  cases l with
  | nil => rfl
  | cons o rest =>
    unfold latestOrder at h
    split at h
    · cases h
    · split at h <;> cases h

/-- The order that entered most recently, the first of those if several did. -/
theorem latestOrder_eq_find (l : List Order) : latestOrder l = l.find? (latestOf l) := by
  induction l with
  | nil => rfl
  | cons o rest ih =>
    unfold latestOrder
    cases hrest : latestOrder rest with
    | none => simp [latestOrder_eq_none hrest, latestOf]
    | some q =>
      have hfound : rest.find? (latestOf rest) = some q := ih.symm.trans hrest
      have hq := (latestOf_iff _ _).mp (List.find?_some hfound)
      dsimp only
      split
      · rename_i hlater
        have ho : ¬ latestOf (o :: rest) o = true := fun h =>
          absurd ((latestOf_iff _ _).mp h q (List.mem_cons_of_mem o (List.mem_of_find?_eq_some hfound))) (by omega)
        have hsame : latestOf (o :: rest) = latestOf rest := by
          funext x
          rw [Bool.eq_iff_iff, latestOf_iff, latestOf_iff, List.forall_mem_cons, and_iff_right_iff_imp]
          intro hx
          exact hlater.le.trans (hx q (List.mem_of_find?_eq_some hfound))
        rw [List.find?_cons_of_neg ho, hsame, hfound]
      · rename_i hlater
        have ho : latestOf (o :: rest) o = true := (latestOf_iff _ _).mpr
          (List.forall_mem_cons.mpr ⟨le_rfl, fun x hx => (hq x hx).trans (not_lt.mp hlater)⟩)
        rw [List.find?_cons_of_pos ho]

/-- R43: an OPEN or a CLOSE of one of the seven valves. -/
theorem ofValve_iff {v : Nat} (hv : v ≤ 6) (o : Order) :
    o.ofValve v = true ↔
      o.body.length = 3 ∧ (octetAt o.body 0 = 1 ∨ octetAt o.body 0 = 2) ∧ field o.body 1 2 = v := by
  unfold Order.ofValve
  simp only [valveOrder_eq, Bool.or_eq_true, beq_iff_eq, Option.ite_none_right_eq_some, Option.some.injEq]
  constructor
  · rintro (⟨⟨hlength, hcode, -⟩, hvalve⟩ | ⟨⟨hlength, hcode, -⟩, hvalve⟩)
    · exact ⟨hlength, .inl hcode, hvalve⟩
    · exact ⟨hlength, .inr hcode, hvalve⟩
  · rintro ⟨hlength, hcode | hcode, hvalve⟩
    · exact .inl ⟨⟨hlength, hcode, hvalve.le.trans hv⟩, hvalve⟩
    · exact .inr ⟨⟨hlength, hcode, hvalve.le.trans hv⟩, hvalve⟩

/-- R61: the code of an order that has a body. -/
theorem code_of_length {o : Order} (h : o.body.length = 3) : o.code = some (octetAt o.body 0) := by
  unfold Order.code orderCode
  cases hb : o.body with
  | nil => simp [hb] at h
  | cons b rest => simp [octetAt]

/-- The OPENs and CLOSEs of a valve. -/
def valveOrders (v : Nat) (l : List Order) : List Order :=
  l.filter (fun o => decide (o.body.length = 3 ∧ (octetAt o.body 0 = 1 ∨ octetAt o.body 0 = 2) ∧ field o.body 1 2 = v))

theorem filter_ofValve_eq {v : Nat} (hv : v ≤ 6) (l : List Order) : l.filter (Order.ofValve v) = valveOrders v l := by
  refine congrArg (l.filter ·) (funext fun o => ?_)
  rw [Bool.eq_iff_iff, ofValve_iff hv, decide_eq_true_eq]

/-- The orders of an address, none where it has no entry. -/
def ordersAt (a : Nat) (s : State) : List Order := (s.station a).elim [] Station.orders

theorem orderedState_eq (a : Nat) {v : Nat} (hv : v ≤ 6) (s : State) :
    orderedState a v s = (latestOrder (valveOrders v (ordersAt a s))).elim .none (fun o =>
      if o.code == some codeOpen then .opened else .close) := by
  unfold orderedState ordersAt
  cases s.station a with
  | none => rfl
  | some e =>
    simp only [filter_ofValve_eq hv, Option.elim_some]
    cases latestOrder (valveOrders v e.orders) <;> rfl

theorem orderedPlace_eq (a v : Nat) (s : State) :
    orderedPlace a v s = (latestOrder (valveOrders v (ordersAt a s))).elim 0 (fun o => octetAt o.body 0) := by
  have hfound : ∀ x, (valveOrders v (ordersAt a s)).find? (latestOf (valveOrders v (ordersAt a s))) = x →
      latestOrder (valveOrders v (ordersAt a s)) = x := fun x => (latestOrder_eq_find _).trans
  unfold orderedPlace
  dsimp only
  split
  · rename_i hnone
    rw [hfound none hnone, Option.elim_none]
  · rename_i o ho
    rw [hfound (some o) ho, Option.elim_some]

/-- R43: what READ shows of a valve's ordered state. -/
theorem orderedOctet_eq (a : Nat) {v : Nat} (hv : v ≤ 6) (s : State) :
    orderedOctet (orderedState a v s) = unlisted .orderedValve (orderedPlace a v s) := by
  rw [orderedState_eq a hv, orderedPlace_eq]
  cases hlatest : latestOrder (valveOrders v (ordersAt a s)) with
  | none => exact unstatedState_eq _ _
  | some o =>
    have hmem : o ∈ valveOrders v (ordersAt a s) :=
      List.mem_of_find?_eq_some ((latestOrder_eq_find _).symm.trans hlatest)
    obtain ⟨hlength, hcode, -⟩ := of_decide_eq_true (List.mem_filter.mp hmem).2
    simp only [Option.elim_some, code_of_length hlength]
    rcases hcode with hcode | hcode <;> rw [hcode] <;> exact unstatedState_eq _ _

/-! ### Words: routing (R42 to R44) -/

/-- R45: whether an outlet reads OPEN. -/
theorem outletSet_any_eq (states : Vector ValveState 7) :
    (outletSetOf states).toList.any id = (states.toList.drop 1).any (· == .opened) := by
  have hlist : (outletSetOf states).toList = (states.toList.drop 1).map (· == .opened) := by
    rw [outletSetOf_eq]
    refine List.ext_getElem (by simp) fun i hi _ => ?_
    simp
  rw [hlist, List.any_map]
  rfl

/-- R44: what READ shows of the holder mode. -/
theorem holderModeOctet_eq (states : Vector ValveState 7) :
    holderModeOctet (holderMode states) = unlisted .holderMode (modePlace states) := by
  unfold holderMode modePlace
  simp only [outletSet_any_eq]
  split_ifs <;> exact unstatedState_eq _ _

theorem valveInHand_eq (q : Routing) :
    q.valveInHand = if q.inHand = none then none else q.sequence.head?.map (·.valve) := by
  unfold Routing.valveInHand
  cases q.inHand <;> rfl

/-- Octets formed valve by valve of a state and of the valve's number, which is at most 6. -/
theorem flatMap_valves (confirmed : ValveState → List Byte) (states : Vector ValveState 7) {f g : Nat → List Byte}
    (h : ∀ v ≤ 6, f v = g v) :
    states.toList.zipIdx.flatMap (fun x => confirmed x.1 ++ f x.2)
      = states.toList.zipIdx.flatMap (fun x => confirmed x.1 ++ g x.2) := by
  refine List.flatMap_congr fun x hx => ?_
  have hvalve : x.2 < 7 := by simpa using (List.mem_zipIdx hx).2.1
  rw [h x.2 (Nat.le_of_lt_succ hvalve)]

theorem routingContent_eq (h : Nat) (q : Routing) (s : State) : routingContent h q s = routingShown h q s := by
  unfold routingContent routingShown
  cases s.holder h with
  | none =>
    simp only [countForm, small_eq, smallOr_eq, twoOctets_eq, flagOctet_eq, districtSet_eq, holderModeOctet_eq,
      confirmedOctet_eq, valveInHand_eq, orderedOctet, unstatedState_eq, Option.elim_none]
  | some r =>
    dsimp only [Option.elim_some]
    rw [flatMap_valves confirmedOctet q.confirmed (fun v hv => orderedOctet_eq r.valveStation hv s)]
    simp only [countForm, small_eq, smallOr_eq, twoOctets_eq, flagOctet_eq, districtSet_eq, holderModeOctet_eq,
      confirmedOctet_eq, valveInHand_eq]

/-! ### Words: stations and strangers (R61, R121, R127) -/

theorem orderOctets_eq : orderOctets = orderShown := by
  funext o
  unfold orderOctets orderShown
  simp only [small_eq, smallOr_eq, twoOctetsOr_eq, origin_code, Order.code, orderCode, Order.operand, operandOf]

/-- The slot's order record, absent in an EMPTY slot. -/
theorem slotOctets_eq (o : Option Order) : slotOctets o = o.elim (absent 7) orderShown := by
  cases o with
  | none => rfl
  | some o => exact congrFun orderOctets_eq o

theorem stationContent_eq (e : Station) (s : State) : stationContent e s = stationShown e s := by
  unfold stationContent stationShown
  simp only [countForm, small_eq, twoOctets_eq, wideOr_eq, stationKind_code, branchOctet_eq, livenessOctet_eq,
    remaining_eq_timeLeft, slotOctets_eq, orderOctets_eq]
  cases e.slot <;> simp only [phaseOctet, Slot.timer, unstatedState_eq]

theorem strangersContent_eq (s : State) : strangersContent s = strangersShown s := by
  simp only [strangersContent, strangersShown, countForm, small_eq, twoOctets_eq, wideOr_eq, branchOctet_eq,
    remaining_eq_timeLeft]

/-! ### Words: books, ports, pool and lists (R113, R139, R150, R162, R166) -/

theorem dayReadContent_eq (b : DayBook) :
    dayReadContent b = (dayShown b).flatten ++ b.hours.toList.flatMap (fun r => numOr 5 r.endStock) := by
  simp only [dayReadContent, dayContent_eq_dayShown, stockForm_eq]

theorem hourReadContent_eq (b : DayBook) (n : Nat) : hourReadContent b n = hourRead b n := by
  funext r
  simp only [hourReadContent, hourRead, districtHourContent_eq, makeStockContent_eq]

theorem portContent_eq (p : Port) (s : State) : portContent p s = portShown p s := by
  unfold portContent portShown
  simp only [countForm, small_eq, twoOctets_eq, wide_eq, faultOctet_eq, List.flatMap_cons, List.flatMap_nil,
    List.append_nil, List.append_assoc]
  cases (s.port p).receiver <;> cases (s.port p).transmitter <;>
    simp only [receiverOctet, transmitterOctet, unstatedState_eq]

theorem poolContent_eq (s : State) : poolContent s = poolShown s := by
  simp only [poolContent, poolShown, small_eq, holdingOctet_eq, remaining_eq_timeLeft]

theorem alarmsContent_eq (s : State) :
    alarmsContent s = num 2 s.alarms.length ++ yes s.alarmOverflow
      ++ s.alarms.flatMap (fun r => alarmShown r (alarmStateCode r) ++ yes r.reportOwed) := by
  simp only [alarmsContent, countForm, twoOctets_eq, flagOctet_eq, alarmContent_eq_alarmShown, alarmState_code]

theorem backlogContent_eq (s : State) :
    backlogContent s = num 2 s.backlog.length ++ yes s.backlogOverflow
      ++ s.backlog.flatMap (fun e => num 1 (reportOf s e.form).kind) := by
  simp only [backlogContent, countForm, small_eq, twoOctets_eq, flagOctet_eq, reportContent_eq_reportOf]

theorem unitContent_eq (s : State) :
    unitContent s = num 1 ([RestartCause.power, .cold, .warm].idxOf s.lastCause) := by
  rw [unitContent, small_eq, restartCause_code]

/-! ### Words: contents by selector (R170) -/

theorem portOf_eq (item : Nat) : portOf item = if item = 0 then .o else if item = 1 then .n else .s := by
  match item with
  | 0 | 1 | _ + 2 => rfl

/-- R170: the hour of an item, of the current book to 23 and of the previous one from 64. -/
theorem hourContent_of_item (item : Nat) (s : State) :
    (hourItem item s).bind (fun x => (x.1.hours[x.2]?).map (hourReadContent x.1 x.2)) =
      (if item < 64 then s.currentBook else s.previousBook).bind (fun b =>
        (b.hours[if item < 64 then item else item - 64]?).map
          (hourRead b (if item < 64 then item else item - 64))) := by
  unfold hourItem
  split
  · cases s.currentBook with
    | none => rfl
    | some b => simp only [Option.map_some, Option.bind_some, hourReadContent_eq]
  · cases s.previousBook with
    | none => rfl
    | some b => simp only [Option.map_some, Option.bind_some, hourReadContent_eq]

/-- R170: the content of every selector and item. -/
theorem readContent_eq_contentOf (selector item : Nat) (s : State) :
    readContent selector item s = contentOf selector item s := by
  match selector with
  | 0 => simp only [readContent, contentOf]
  | 1 => simp only [readContent, contentOf, settingsContent_eq]
  | 2 => simp only [readContent, contentOf, funext (pointContent_eq item)]
  | 3 => simp only [readContent, contentOf, vapourContent_eq]
  | 4 => simp only [readContent, contentOf, localContent_eq]
  | 5 => simp only [readContent, contentOf, funext (holderRecordContent_eq item)]
  | 6 => simp only [readContent, contentOf, routingContent_eq]
  | 7 => simp only [readContent, contentOf, stationContent_eq]
  | 8 => simp only [readContent, contentOf, strangersContent_eq]
  | 9 => simp only [readContent, contentOf, districtContent_eq]
  | 10 => simp only [readContent, contentOf, funext (meterContent_eq item)]
  | 11 => simp only [readContent, contentOf, clockContent_eq]
  | 12 => simp only [readContent, contentOf, funext dayReadContent_eq]
  | 13 => simp only [readContent, contentOf, hourContent_of_item]
  | 14 => simp only [readContent, contentOf, portContent_eq, portOf_eq]
  | 15 => simp only [readContent, contentOf, poolContent_eq]
  | 16 => simp only [readContent, contentOf, alarmsContent_eq]
  | 17 => simp only [readContent, contentOf, backlogContent_eq]
  | 18 => simp only [readContent, contentOf, unitContent_eq]
  | _ + 19 => simp only [readContent, contentOf]

end Sys2Proof.Reading
end

section
/-! SUPPORT. The statement about READ. -/

namespace Sys2Proof.Reading

open Sys2Proof Sys2Proof.Machine Sys2Proof.Claims Sys2Proof.Laws Sys2Proof.Reports Sys2Proof.Points

/-! ### READ (R170) -/

theorem itemInRange_iff (selector item : Nat) : itemInRange selector item = true ↔ itemFits selector item := by
  unfold itemInRange
  split <;> simp only [Bool.or_eq_true, Records.not_outside_iff, decide_eq_true_eq, beq_iff_eq] <;> simp_all [itemFits]

theorem read_format_iff (f : List Byte) (selector : Nat) :
    (f.length != 3 || outside 1 18 selector) = true ↔ ¬ (f.length = 3 ∧ 1 ≤ selector ∧ selector ≤ 18) := by
  simp only [outside, Bool.or_eq_true, bne_iff_ne, decide_eq_true_eq]
  omega

theorem read_range_iff (selector item part : Nat) :
    (!itemInRange selector item || part == 0) = true ↔ ¬ (itemFits selector item ∧ 1 ≤ part) := by
  rw [← itemInRange_iff, Bool.or_eq_true, Bool.not_eq_true', beq_iff_eq, not_and_or, Bool.not_eq_true, not_le,
    Nat.lt_one_iff]

theorem afterRead_eq (selector : Nat) (s : State) :
    afterRead selector s = { s with
      backlogOverflow := if selector = 17 then false else s.backlogOverflow, freeCount := s.freeCount + 8 } := by
  unfold afterRead
  by_cases h : selector = 17 <;> simp [h]

/-- R170: the part of a content, 54 octets to a part. -/
theorem partOctets_eq (content : List Byte) (part : Nat) :
    partOctets content part = (content.drop (54 * (part - 1))).take 54 := by
  rw [partOctets, Nat.mul_comm]

section Judged

variable {f : List Byte} {u : State} (hf : f.length = 3 ∧ 1 ≤ octetAt f 0 ∧ octetAt f 0 ≤ 18)

theorem readRequest_badFormat (h : ¬ (f.length = 3 ∧ 1 ≤ octetAt f 0 ∧ octetAt f 0 ≤ 18)) :
    readRequest f u = ⟨.badFormat, [], u⟩ := by
  simp only [readRequest, firstFailure_here ((read_format_iff f (octetAt f 0)).mpr h)]

include hf

theorem readRequest_outOfRange (h : ¬ (itemFits (octetAt f 0) (octetAt f 1) ∧ 1 ≤ octetAt f 2)) :
    readRequest f u = ⟨.outOfRange, [], u⟩ := by
  simp only [readRequest, firstFailure_next (mt (read_format_iff f (octetAt f 0)).mp (not_not.mpr hf)),
    firstFailure_here ((read_range_iff _ _ _).mpr h)]

variable (hw : itemFits (octetAt f 0) (octetAt f 1) ∧ 1 ≤ octetAt f 2)

include hw

theorem readRequest_unknownItem (hc : contentOf (octetAt f 0) (octetAt f 1) u = none) :
    readRequest f u = ⟨.unknownItem, [], u⟩ := by
  simp only [readRequest, firstFailure_next (mt (read_format_iff f (octetAt f 0)).mp (not_not.mpr hf)),
    firstFailure_next (mt (read_range_iff _ _ _).mp (not_not.mpr hw)), firstFailure_nil, readContent_eq_contentOf, hc]

variable {content : List Byte} (hc : contentOf (octetAt f 0) (octetAt f 1) u = some content)

include hc

/-- R170: a part of a content, of the parts that it has. -/
theorem readRequest_part :
    readRequest f u =
      if partCount content < octetAt f 2 then ⟨.unknownItem, [], u⟩
      else ⟨.accepted, num 1 (octetAt f 2) ++ num 1 (partCount content)
          ++ (content.drop (54 * (octetAt f 2 - 1))).take 54,
        { u with
          backlogOverflow := if octetAt f 0 = 17 then false else u.backlogOverflow, freeCount := u.freeCount + 8 }⟩ := by
  simp only [readRequest, firstFailure_next (mt (read_format_iff f (octetAt f 0)).mp (not_not.mpr hf)),
    firstFailure_next (mt (read_range_iff _ _ _).mp (not_not.mpr hw)), firstFailure_nil, readContent_eq_contentOf, hc,
    small_eq, partOctets_eq, afterRead_eq]

end Judged

/-- Settles O49: the first of the two checks that fails; then the content, which the statement's words and the model form
alike, and the part of it. -/
theorem readActs : Obligations.ReadActs := by
  intro f r s u h
  have answer : ∀ {result : ResultCode} {data : List Byte} {v : State}, readRequest f u = ⟨result, data, v⟩ →
      exec .read s = .next (answered r 19 result data v) := request_of_performed h (by decide) (by decide)
  refine ⟨fun hf => answer (readRequest_badFormat hf), fun hf hw => answer (readRequest_outOfRange hf hw),
    fun hf hitem hpart => ?_⟩
  cases hc : contentOf (octetAt f 0) (octetAt f 1) u with
  | none => exact answer (readRequest_unknownItem hf ⟨hitem, hpart⟩ hc)
  | some content =>
    have hread := readRequest_part hf ⟨hitem, hpart⟩ hc
    by_cases hcount : partCount content < octetAt f 2
    · rw [if_pos hcount] at hread
      exact (if_pos hcount).mpr (answer hread)
    · rw [if_neg hcount] at hread
      exact (if_neg hcount).mpr (answer hread)

end Sys2Proof.Reading
end

section
/-! SUPPORT. The Pressure Scheduler's operations and the district requests write what SupplyOnly names, and no more. -/

namespace Sys2Proof.Laws.SupplyOnly

open Sys2Proof Sys2Proof.Machine

/-! ### Orders and their endings (R64, R65, R69, R83) -/

theorem putDistrict (d : Nat) (x : District) (s : State) : SupplyOnly s (s.putDistrict d x) := rfl

theorem setFailed (b : Bool) (d a : Nat) (s : State) : SupplyOnly s (setFailed b d a s) := by
  have hraised : SupplyOnly s (if b then raiseAlarm (alarmKey .orderFailed d) s else s) := by
    cases b
    · exact refl s
    · exact records (.raiseAlarm _ s)
  unfold Machine.setFailed
  dsimp only
  split
  · exact hraised
  · split
    · exact hraised.trans (putDistrict d _ _)
    · exact hraised

theorem placeRelease (a d : Nat) (s : State) : SupplyOnly s (placeRelease a d s) := by
  unfold Machine.placeRelease
  split
  · exact refl s
  · have hserial : SupplyOnly s (nextSerial s) := rfl
    exact hserial.trans ((makeRoom _ _).trans rfl)

theorem issueRelease (d : Nat) (s : State) : SupplyOnly s (issueRelease d s) := by
  unfold Machine.issueRelease
  split
  · exact refl s
  · split
    · exact records (.raiseAlarm _ s)
    · exact placeRelease _ _ s

theorem oweSetpoint (d : Nat) (s : State) : SupplyOnly s (oweSetpoint d s) := records (.oweReference _ s)

theorem governorCompletion (d a : Nat) (o : Order) (reply : List Byte) (s : State) :
    SupplyOnly s (governorCompletion d a o reply s) := by
  unfold Machine.governorCompletion
  split
  · exact refl s
  · split
    · exact refl s
    · dsimp only
      split
      · split
        · have hwritten : ∀ (m : Mode) x v, SupplyOnly s
              (if m = .auto then s.putDistrict d x else Machine.writeActive d v (s.putDistrict d x)) := by
            intro m x v
            split
            · exact putDistrict d x s
            · exact (putDistrict d x s).trans (writeActive d v _)
          split
          · exact (hwritten _ _ _).trans (oweSetpoint d _)
          · exact hwritten _ _ _
        · exact putDistrict d _ s
      · exact putDistrict d _ s

theorem judgeOrderFailed (d : Nat) (reply : List Byte) (s : State) : SupplyOnly s (judgeOrderFailed d reply s) := by
  unfold Machine.judgeOrderFailed
  split
  · exact records (.clearAlarm _ s)
  · exact records (.raiseAlarm _ s)

/-! ### Step boundaries (R85 to R93) -/

theorem judgeShort (d : Nat) (r : District) (b : Nat) (s : State) : SupplyOnly s (judgeShort d r b s) := by
  unfold Machine.judgeShort
  split
  · exact refl s
  · split
    · exact records (.raiseAlarm _ s)
    · exact records (.clearAlarm _ s)

theorem stepComputation (d : Nat) (s : State) : SupplyOnly s (stepComputation d s) := by
  unfold Machine.stepComputation
  split
  · exact refl s
  · exact (putDistrict d _ s).trans ((judgeShort d _ _ _).trans ((writeActive d _ _).trans (sendDecision d _)))

theorem stepBoundary (d : Nat) (s : State) : SupplyOnly s (stepBoundary d s) := by
  unfold Machine.stepBoundary
  split
  · exact refl s
  · dsimp only
    split
    · exact (putDistrict d _ s).trans (stepComputation d _)
    · exact putDistrict d _ s

/-! ### Requests (R81, R84, R90, R98) -/

theorem storeDistrict (f : List Byte) (s : State) : SupplyOnly s (storeDistrict f s) := by
  unfold Machine.storeDistrict
  dsimp only
  split
  · unfold firstLoad
    dsimp only
    split
    · exact putDistrict _ _ s
    · exact (putDistrict _ _ s).trans (records (.raiseAlarm _ _))
  · exact (putDistrict _ _ s).trans (recomputeDistrict _ _)

theorem storeProfile (d : Nat) (l : List Breakpoint) (s : State) : SupplyOnly s (storeProfile d l s) := by
  unfold Machine.storeProfile
  split
  · exact refl s
  · exact putDistrict d _ s

theorem setFog (raise duration : Nat) (s : State) (d : Nat) : SupplyOnly s (setFog raise duration s d) := by
  unfold Machine.setFog
  split
  · exact refl s
  · exact putDistrict d _ s

theorem setMode (d : Nat) (m : Mode) (s : State) : SupplyOnly s (setMode d m s) := by
  unfold Machine.setMode
  split
  · exact refl s
  · exact putDistrict d _ s

theorem dropAutomaticSets (a : Nat) (s : State) : SupplyOnly s (dropAutomaticSets a s) := by
  unfold Machine.dropAutomaticSets
  split <;> rfl

theorem supersedeOfficeOrders (a : Nat) (s : State) : SupplyOnly s (supersedeOfficeOrders a s) := by
  unfold Machine.supersedeOfficeOrders
  split
  · exact refl s
  · exact trans (by rfl) (records (.foldl (RecordsOnly.supersede .governor) _ _))

theorem enterManual (d : Nat) (r : District) (s : State) : SupplyOnly s (enterManual d r s) := by
  unfold Machine.enterManual
  split
  · exact (records (.clearAlarm _ s)).trans ((dropAutomaticSets _ _).trans (setMode d _ _))
  · exact setMode d _ s

theorem changeMode (d : Nat) (m : Mode) (s : State) : SupplyOnly s (changeMode d m s) := by
  unfold Machine.changeMode
  split
  · exact refl s
  · rename_i r _
    split
    · exact refl s
    · refine trans ?_ (oweSetpoint d _)
      cases m with
      | released => exact (records (.clearAlarm _ s)).trans ((setMode d _ _).trans (issueRelease d _))
      | manual => exact enterManual d r s
      | auto =>
        exact (supersedeOfficeOrders _ s).trans ((putDistrict d _ _).trans ((setMode d _ _).trans (stepBoundary d _)))

end Sys2Proof.Laws.SupplyOnly
end

section
/-! SUPPORT. The pieces of state that the statement about commands names, and what shared operations write of them. -/

namespace Sys2Proof.Frames

open Sys2Proof Sys2Proof.Machine Sys2Proof.Laws

/-! ### Pieces of state -/

/-- The pieces of state whose writers the statements name. -/
inductive Piece where
  | pending | lastCause | settings | vapour | unit | clock | previousBook | strangers | localConverter | points | meters
  | holders | yardStock | freeCount

/-- A piece stands as it stood. -/
def Piece.Same (s t : State) : Piece → Prop
  | .pending => t.pending = s.pending
  | .lastCause => t.lastCause = s.lastCause
  | .settings => t.settings = s.settings
  | .vapour => t.vapour = s.vapour
  | .unit => t.unit = s.unit
  | .clock => t.clock = s.clock
  | .previousBook => t.previousBook = s.previousBook
  | .strangers => t.strangers = s.strangers
  | .localConverter => t.localConverter = s.localConverter
  | .points => t.points = s.points
  | .meters => t.meters = s.meters
  | .holders => t.holders = s.holders
  | .yardStock => t.yardStock = s.yardStock
  | .freeCount => t.freeCount = s.freeCount

/-- The state with every piece that has no name here at its reset value. -/
def named (s : State) : State :=
  { State.reset with
    pending := s.pending, lastCause := s.lastCause, settings := s.settings, vapour := s.vapour, unit := s.unit
    clock := s.clock, previousBook := s.previousBook, strangers := s.strangers, localConverter := s.localConverter
    points := s.points, meters := s.meters, holders := s.holders, yardStock := s.yardStock, freeCount := s.freeCount }

theorem same_of_named {s t : State} (h : named t = named s) (p : Piece) : p.Same s t := by
  cases p with
  | pending => exact (congrArg State.pending h :)
  | lastCause => exact (congrArg State.lastCause h :)
  | settings => exact (congrArg State.settings h :)
  | vapour => exact (congrArg State.vapour h :)
  | unit => exact (congrArg State.unit h :)
  | clock => exact (congrArg State.clock h :)
  | previousBook => exact (congrArg State.previousBook h :)
  | strangers => exact (congrArg State.strangers h :)
  | localConverter => exact (congrArg State.localConverter h :)
  | points => exact (congrArg State.points h :)
  | meters => exact (congrArg State.meters h :)
  | holders => exact (congrArg State.holders h :)
  | yardStock => exact (congrArg State.yardStock h :)
  | freeCount => exact (congrArg State.freeCount h :)

theorem Piece.Same.trans {s t u : State} {p : Piece} (h : p.Same s t) (k : p.Same t u) : p.Same s u := by
  cases p <;> exact Eq.trans k h

/-- The pieces that a reckoning writes (R31, R32). -/
def reckoning : List Piece := [.holders, .yardStock]

/-- The pieces that a point's update writes, the point's own among them (R7). -/
def updating : List Piece := .points :: .meters :: reckoning

theorem holders_mem {F : List Piece} (hF : reckoning ⊆ F) : .holders ∈ F := hF (List.mem_cons_self ..)

theorem yardStock_mem {F : List Piece} (hF : reckoning ⊆ F) : .yardStock ∈ F :=
  hF (List.mem_cons_of_mem _ (List.mem_cons_self ..))

theorem points_mem {F : List Piece} (hF : updating ⊆ F) : .points ∈ F := hF (List.mem_cons_self ..)

theorem meters_mem {F : List Piece} (hF : updating ⊆ F) : .meters ∈ F :=
  hF (List.mem_cons_of_mem _ (List.mem_cons_self ..))

theorem reckoning_subset {F : List Piece} (hF : updating ⊆ F) : reckoning ⊆ F := fun _ h =>
  hF (List.mem_cons_of_mem _ (List.mem_cons_of_mem _ h))

/-- Every piece outside a list stands as it stood. -/
def Writes (F : List Piece) (s t : State) : Prop := ∀ p, p ∉ F → p.Same s t

namespace Writes

variable {F : List Piece} {s t u : State}

theorem refl (s : State) : Writes F s s := fun p _ => same_of_named rfl p

theorem trans (h : Writes F s t) (k : Writes F t u) : Writes F s u := fun p hp => (h p hp).trans (k p hp)

theorem foldl {α : Type} {f : State → α → State} (hf : ∀ {t : State} (x : α), Writes F s t → Writes F s (f t x))
    (l : List α) (h : Writes F s t) : Writes F s (l.foldl f t) := by
  induction l generalizing t with
  | nil => exact h
  | cons x l ih => exact ih (hf x h)

theorem ite (p : Prop) [Decidable p] (h : Writes F s t) (k : Writes F s u) : Writes F s (if p then t else u) := by
  split
  · exact h
  · exact k

/-- A change that leaves every piece. -/
theorem rest (h : Writes F s t) (k : named u = named t) : Writes F s u := h.trans fun p _ => same_of_named k p

/-- A change of one piece of the list. -/
theorem one {q : Piece} (hq : q ∈ F) (h : Writes F s t) (k : ∀ p, p = q ∨ p.Same t u) : Writes F s u :=
  h.trans fun p hp => (k p).resolve_left fun e => hp (e ▸ hq)

/-! ### A piece written -/

theorem writeSettings (hF : .settings ∈ F) (x : Settings) (h : Writes F s t) : Writes F s { t with settings := x } :=
  h.one hF fun p => by cases p <;> simp [Piece.Same]

theorem writeVapour (hF : .vapour ∈ F) (x : Vector (Option Nat) 41) (h : Writes F s t) :
    Writes F s { t with vapour := x } :=
  h.one hF fun p => by cases p <;> simp [Piece.Same]

theorem writeUnit (hF : .unit ∈ F) (x : UnitState) (h : Writes F s t) : Writes F s { t with unit := x } :=
  h.one hF fun p => by cases p <;> simp [Piece.Same]

theorem writeClock (hF : .clock ∈ F) (x : Clock) (h : Writes F s t) : Writes F s { t with clock := x } :=
  h.one hF fun p => by cases p <;> simp [Piece.Same]

theorem writePreviousBook (hF : .previousBook ∈ F) (x : Option DayBook) (h : Writes F s t) :
    Writes F s { t with previousBook := x } :=
  h.one hF fun p => by cases p <;> simp [Piece.Same]

theorem writeStrangers (hF : .strangers ∈ F) (x : List Stranger) (h : Writes F s t) :
    Writes F s { t with strangers := x } :=
  h.one hF fun p => by cases p <;> simp [Piece.Same]

theorem writeConverter (hF : .localConverter ∈ F) (x : LocalConverter) (h : Writes F s t) :
    Writes F s { t with localConverter := x } :=
  h.one hF fun p => by cases p <;> simp [Piece.Same]

theorem writePoints (hF : .points ∈ F) (x : Vector (Option Point) 192) (h : Writes F s t) :
    Writes F s { t with points := x } :=
  h.one hF fun p => by cases p <;> simp [Piece.Same]

theorem writeMeters (hF : .meters ∈ F) (x : Vector (Option Meter) 8) (h : Writes F s t) :
    Writes F s { t with meters := x } :=
  h.one hF fun p => by cases p <;> simp [Piece.Same]

theorem writeHolders (hF : .holders ∈ F) (x : Vector (Option Holder) 8) (h : Writes F s t) :
    Writes F s { t with holders := x } :=
  h.one hF fun p => by cases p <;> simp [Piece.Same]

theorem writeYardStock (hF : .yardStock ∈ F) (x : Nat) (h : Writes F s t) : Writes F s { t with yardStock := x } :=
  h.one hF fun p => by cases p <;> simp [Piece.Same]

theorem writeFreeCount (hF : .freeCount ∈ F) (x : Nat) (h : Writes F s t) : Writes F s { t with freeCount := x } :=
  h.one hF fun p => by cases p <;> simp [Piece.Same]

theorem putPoint (hF : .points ∈ F) (n : Nat) (x : Option Point) (h : Writes F s t) : Writes F s (t.putPoint n x) :=
  h.writePoints hF _

theorem putMeter (hF : .meters ∈ F) (m : Nat) (x : Meter) (h : Writes F s t) : Writes F s (t.putMeter m x) :=
  h.writeMeters hF _

theorem putHolder (hF : .holders ∈ F) (k : Nat) (x : Holder) (h : Writes F s t) : Writes F s (t.putHolder k x) :=
  h.writeHolders hF _

theorem putRouting (k : Nat) (x : Routing) (h : Writes F s t) : Writes F s (t.putRouting k x) := h.rest rfl

theorem modStation (a : Nat) (f : Station → Station) (h : Writes F s t) : Writes F s (t.modStation a f) := h.rest rfl

/-! ### What the laws of the operations say of the pieces -/

theorem supply (h : Writes F s t) (k : SupplyOnly t u) : Writes F s u := by
  rw [k]
  exact h.rest rfl

theorem records (h : Writes F s t) (k : RecordsOnly t u) : Writes F s u := h.supply (.records k)

theorem sends (h : Writes F s t) (k : SendsOnly t u) : Writes F s u := by
  rw [k]
  exact h.rest rfl

theorem line (h : Writes F s t) (k : LineOnly t u) : Writes F s u := h.sends (.of_lineOnly k)

theorem enqueue (p : Port) (urgent : Bool) (x : Telegram) (h : Writes F s t) :
    Writes F s (Machine.enqueue p urgent x t) := h.line (.enqueue p urgent x (.refl t))

theorem freeBuffer (b : Buffer) (h : Writes F s t) : Writes F s (Machine.freeBuffer b t) := h.sends (.freeBuffer b t)

theorem serve (a : Nat) (h : Writes F s t) : Writes F s (Machine.serve a t) := h.modStation a _

theorem takeReceived {p : Port} {r : Received} (hr : Machine.takeReceived p t = some (r, u)) (h : Writes F s t) :
    Writes F s u := h.line (Part.takeReceived hr)

/-- The yard blocks write the meters, the holders and the yard stock, and no other piece. -/
theorem yard (hm : .meters ∈ F) (hF : reckoning ⊆ F) (h : Writes F s t) (k : Yard t u) : Writes F s u := by
  induction k with
  | refl => exact h
  | trans _ _ ih ih' => exact ih' (ih h)
  | holder t n x => exact h.putHolder (holders_mem hF) n x
  | meter t m x => exact h.putMeter hm m x
  | stock t => exact h.writeYardStock (yardStock_mem hF) _
  | outlet t n set => cases n <;> exact h.rest rfl
  | full t r => exact h.records (.oweFull r t)
  | reference t ref => exact h.records (.oweReference ref t)
  | alarmEntry t key =>
    unfold oweAlarm
    split_ifs <;> exact h.rest rfl
  | _ => exact h.rest rfl

end Writes

end Sys2Proof.Frames
end

section
/-! SUPPORT. What the Valve Interlock Unit, the endings of orders and the Stock Reckoning Unit write of the pieces. -/

namespace Sys2Proof.Frames

open Sys2Proof Sys2Proof.Machine Sys2Proof.Laws

namespace Writes

variable {F : List Piece} {s t u : State}

/-! ### Valve Interlock Unit (R45, R51 to R58) -/

theorem writeOutletSet (k : Nat) (set : DistrictSet) (h : Writes F s t) :
    Writes F s (Machine.writeOutletSet k set t) := by
  cases k <;> exact h.rest rfl

theorem handOutletSet (k : Nat) (set : DistrictSet) (h : Writes F s t) : Writes F s (Machine.handOutletSet k set t) :=
  (h.writeOutletSet k set).supply (.recomputeSupply _)

theorem formOutletSet (k : Nat) (h : Writes F s t) : Writes F s (Machine.formOutletSet k t) := by
  unfold Machine.formOutletSet
  split
  · exact h
  · dsimp only
    split
    · exact h
    · exact handOutletSet k _ (h.putRouting k _)

theorem takeValveStates (k : Nat) (body : List Byte) (h : Writes F s t) :
    Writes F s (Machine.takeValveStates k body t) := by
  unfold Machine.takeValveStates
  split
  · split
    · exact h
    · refine foldl (fun v h => ?_) _ (formOutletSet k (h.putRouting k _))
      split
      · exact h.records (.clearAlarm _ _)
      · exact h
  · exact h

theorem closeOutcome (k v : Nat) (success : Bool) (h : Writes F s t) :
    Writes F s (Machine.closeOutcome k v success t) := by
  unfold Machine.closeOutcome
  split
  · exact h
  · split
    · exact h
    · exact (formOutletSet k (h.putRouting k _)).records (.raiseAlarm _ _)

theorem setSequence (k : Nat) (l : List Closure) (n : Option Nat) (h : Writes F s t) :
    Writes F s (Machine.setSequence k l n t) := by
  unfold Machine.setSequence
  split
  · exact h
  · exact h.putRouting k _

theorem handFront (k a : Nat) (l : List Closure) (h : Writes F s t) : Writes F s (Machine.handFront k a l t) := by
  induction l generalizing t with
  | nil => exact h.setSequence k _ _
  | cons c l ih =>
    have hsequence := fun l n => h.setSequence k l n
    unfold Machine.handFront
    split
    · exact h
    · split
      · exact ih h
      · split
        · exact ih ((hsequence _ _).closeOutcome k _ _)
        · exact (hsequence _ _).supply (.placeClose _ _ _ _)

theorem handOver (k : Nat) (h : Writes F s t) : Writes F s (Machine.handOver k t) := by
  unfold Machine.handOver
  split
  · split
    · exact h
    · exact h.handFront k _ _
  · exact h

theorem closeEnded (k : Nat) (o : Order) (done resume : Bool) (h : Writes F s t) :
    Writes F s (Machine.closeEnded k o done resume t) := by
  unfold Machine.closeEnded
  split
  · exact h
  · split
    · split
      · exact h
      · have hjudged := fun l n v success => (h.setSequence k l n).closeOutcome k v success
        dsimp only
        split
        · exact (hjudged _ _ _ _).handOver k
        · exact hjudged _ _ _ _
    · exact h

theorem dropSequence (k : Nat) (l : List Closure) (h : Writes F s t) : Writes F s (Machine.dropSequence k l t) := by
  induction l generalizing t with
  | nil => exact h.setSequence k _ _
  | cons c l ih =>
    unfold Machine.dropSequence
    split
    · exact h
    · exact ih ((h.setSequence k _ _).closeOutcome k _ _)

theorem endSequence (a : Nat) (h : Writes F s t) : Writes F s (Machine.endSequence a t) := by
  unfold Machine.endSequence
  split
  · exact h
  · split
    · exact h
    · exact h.dropSequence _ _

theorem interlockCause (k : Nat) (cause : SupersessionCause) (h : Writes F s t) :
    Writes F s (Machine.interlockCause k cause t) := by
  unfold Machine.interlockCause
  split
  · exact h
  · rename_i r _
    have hwithdrawn := h.supply (.withdrawOpens r.valveStation cause t)
    have hadded : ∀ v, Writes F s (addClosures k cause v (withdrawOpens r.valveStation cause t).2) := by
      intro v
      unfold addClosures
      split
      · exact hwithdrawn
      · exact hwithdrawn.putRouting k _
    refine serve _ ?_
    split
    · exact hadded _
    · exact (hadded _).handOver k

/-! ### Endings of orders (R68 to R72, R76) -/

theorem emptySlot (a : Nat) (h : Writes F s t) : Writes F s (Machine.emptySlot a t) := h.rest rfl

theorem handCloseEnding (o : Order) (done resume : Bool) (h : Writes F s t) :
    Writes F s (Machine.handCloseEnding o done resume t) := by
  unfold Machine.handCloseEnding
  split
  · exact h
  · exact h.closeEnded _ _ _ _

theorem orderFailed (o : Order) (h : Writes F s t) : Writes F s (Machine.orderFailed o t) := by
  unfold Machine.orderFailed
  split
  · exact h.records (.oweFull _ _)
  · exact h.handCloseEnding o _ _
  · split
    · exact h.supply (.setFailed _ _ _ _)
    · exact h.records (.raiseAlarm _ _)

theorem replyTimerExpired (a : Nat) (h : Writes F s t) : Writes F s (Machine.replyTimerExpired a t) := by
  unfold Machine.replyTimerExpired
  split
  · exact h
  · split
    · split
      · exact h.modStation a _
      · exact serve a (orderFailed _ (h.emptySlot a))
    · exact h

theorem completeOrder (a : Nat) (o : Order) (body : List Byte) (h : Writes F s t) :
    Writes F s (Machine.completeOrder a o body t) := by
  have hemptied := h.emptySlot a
  refine serve a ?_
  split
  · unfold officeCompletion
    split
    · split
      · exact hemptied
      · exact hemptied.supply (.governorCompletion _ _ _ _ _)
    · exact hemptied
  · unfold automaticCompletion
    split
    · exact hemptied
    · exact hemptied.handCloseEnding o _ _
    · exact hemptied.supply ((SupplyOnly.governorCompletion _ _ _ _ _).trans (.judgeOrderFailed _ _ _))

theorem clearOrders (a : Nat) (h : Writes F s t) : Writes F s (Machine.clearOrders a t) := by
  unfold Machine.clearOrders
  split
  · exact h
  · exact foldl (fun o h => h.supply (clearOrder_supply _ o)) _ ((h.emptySlot a).modStation a _)

/-! ### Stock Reckoning Unit (R31 to R40) -/

theorem clearCondition (k : Nat) (c : Condition) (h : Writes F s t) : Writes F s (Machine.clearCondition k c t) := by
  unfold Machine.clearCondition
  split
  · exact h
  · exact h.records (.clearAlarm _ _)

theorem raiseCondition (k : Nat) (c : Condition) (h : Writes F s t) : Writes F s (Machine.raiseCondition k c t) := by
  unfold Machine.raiseCondition
  split
  · exact h
  · exact h.records (.raiseAlarm _ _)

theorem overTopChange (k : Nat) (before after : Bool) (h : Writes F s t) :
    Writes F s (Machine.overTopChange k before after t) := by
  unfold Machine.overTopChange
  split
  · exact h
  · split
    · exact h.records (.raiseAlarm _ _)
    · exact h.records (.clearAlarm _ _)

theorem handStockPartial (h : Writes F s t) : Writes F s (Machine.handStockPartial t) := h.rest rfl

/-- R59: the Routing Record of a holder whose valve station is another. -/
theorem moveRouting (k a : Nat) (former : DistrictSet) (h : Writes F s t) :
    Writes F s (Machine.moveRouting k a former t) := by
  have hcleared : Writes F s (clearCloseFailures k (t.putRouting k Routing.fresh)) :=
    foldl (fun v h => h.records (.clearAlarm _ _)) _ (h.putRouting k _)
  unfold Machine.moveRouting
  dsimp only
  refine supply ?_ (.withdrawFromNewStation _ _)
  split
  · exact hcleared
  · exact hcleared.handOutletSet k _

section Stock

variable (hF : reckoning ⊆ F)

include hF

theorem conditionChange (k : Nat) (c : Condition) (h : Writes F s t) : Writes F s (Machine.conditionChange k c t) := by
  unfold Machine.conditionChange
  split
  · exact h
  · rename_i r _
    have hraised := (h.clearCondition k r.condition).raiseCondition k c
    have hheld := fun x => (hraised.putHolder (holders_mem hF) k x).records (.oweReference (.holder k) _)
    dsimp only
    split
    · refine supply ?_ (.recomputeSupply _)
      split
      · exact hheld _
      · exact (hheld _).interlockCause k _
    · split
      · exact hheld _
      · exact (hheld _).interlockCause k _

theorem endBlindness (k : Nat) (h : Writes F s t) : Writes F s (Machine.endBlindness k t) := by
  unfold Machine.endBlindness
  split
  · exact h
  · exact ((h.putHolder (holders_mem hF) k _).records (.clearAlarm _ _)).records (.oweReference _ _)

theorem holderStored (k : Nat) (x : Holder) (h : Writes F s t) : Writes F s (formYardStock (t.putHolder k x)) :=
  (h.putHolder (holders_mem hF) k x).writeYardStock (yardStock_mem hF) _

theorem reckon (k : Nat) (g : Int) (h : Writes F s t) : Writes F s (Machine.reckon k g t) := by
  unfold Machine.reckon
  split
  · exact h
  · rename_i r _
    have htop := (h.holderStored hF k (reckoned r g t)).overTopChange k r.overTop (reckoned r g t).overTop
    have hsight := ite (r.blind = true) (htop.endBlindness hF k) htop
    have hjudged := fun after => ite (after = r.condition) hsight (hsight.conditionChange hF k after)
    exact ite _ (hjudged _) ((hjudged _).supply (.recomputeSupply _))

theorem bringIn (k : Nat) (h : Writes F s t) : Writes F s (Machine.bringIn k t) := by
  unfold Machine.bringIn
  split
  · exact h
  · have hentered : ∀ x, Writes F s
        (Machine.handStockPartial (recomputeSupply (oweHolderState k (formYardStock (t.putHolder k x))))) := fun x =>
      (((h.holderStored hF k x).records (.oweReference _ _)).supply (.recomputeSupply _)).handStockPartial
    dsimp only
    split
    · exact hentered _
    · exact (hentered _).reckon hF k _

theorem takeOut (k : Nat) (h : Writes F s t) : Writes F s (Machine.takeOut k t) := by
  unfold Machine.takeOut
  split
  · exact h
  · rename_i r _
    have hcleared := ((h.clearCondition k r.condition).records (.clearAlarm (alarmKey .overTop k) _)).records
      (.clearAlarm (alarmKey .holderBlind k) _)
    have hout := fun x => ((hcleared.holderStored hF k x).records (.oweReference (.holder k) _)).interlockCause k .out
    exact ((hout _).supply (.recomputeSupply _)).handStockPartial

theorem setService (k : Nat) (enter : Bool) (h : Writes F s t) : Writes F s (Machine.setService k enter t) := by
  unfold Machine.setService
  split
  · exact h
  · split
    · exact h
    · split
      · exact h.bringIn hF k
      · exact h.takeOut hF k

theorem storeLift (k n : Nat) (l : Lift) (h : Writes F s t) : Writes F s (Machine.storeLift k n l t) := by
  unfold Machine.storeLift
  split
  · exact h
  · exact h.holderStored hF k _

theorem storeHolder (f : List Byte) (h : Writes F s t) : Writes F s (Machine.storeHolder f t) := by
  have hstored := h.holderStored hF (octetAt f 0)
  unfold Machine.storeHolder
  extract_lets k a
  split
  · extract_lets
    split
    · exact hstored _
    · exact (hstored _).moveRouting _ _ _
  · exact (((hstored _).putRouting k _).writeOutletSet k _).supply (.withdrawFromNewStation _ _)

end Stock

end Writes

end Sys2Proof.Frames
end

section
/-! SUPPORT. What the Account Unit, the Point Converter, the Relay Unit, the ports and the requests write. -/

namespace Sys2Proof.Frames

open Sys2Proof Sys2Proof.Machine Sys2Proof.Laws

namespace Writes

variable {F : List Piece} {s t u : State}

/-! ### Day books and the clock (R101 to R104, R113 to R117) -/

theorem modOpenHour (f : Hour → Hour) (h : Writes F s t) : Writes F s (Machine.modOpenHour f t) := h.rest rfl

theorem openPresentHour (h : Writes F s t) : Writes F s (Machine.openPresentHour t) := h.rest rfl

theorem openBook (opening : Nat) (h : Writes F s t) : Writes F s (Machine.openBook opening t) := h.rest rfl

theorem oweHourClose (b : DayBook) (n : Nat) (h : Writes F s t) : Writes F s (Machine.oweHourClose b n t) :=
  h.records ((RecordsOnly.foldl (fun _ _ => .oweReference _ _) _ t).trans (.oweReference _ _))

theorem dayClose (hb : .previousBook ∈ F) (h : Writes F s t) : Writes F s (Machine.dayClose t) := by
  unfold Machine.dayClose
  split
  · exact h
  · rename_i b _
    have hclosed : ∀ v, Writes F s v → Writes F s
        (Machine.openBook t.yardStock { v with previousBook := some (closeBook t.yardStock b) }) := fun v hv =>
      openBook _ (hv.writePreviousBook hb _)
    refine records (hclosed _ ?_) (.oweReference _ _)
    split
    · split
      · exact h
      · exact h.records (.raiseAlarm _ _)
    · exact h

theorem advanceClock (hc : .clock ∈ F) (h : Writes F s t) : Writes F s (Machine.advanceClock t) := by
  unfold Machine.advanceClock
  dsimp only
  split
  · exact h
  · exact h.writeClock hc _

theorem closeOpenHour (hc : .clock ∈ F) (clockSet : Bool) (h : Writes F s t) :
    Writes F s (Machine.closeOpenHour clockSet t) := by
  unfold Machine.closeOpenHour
  split
  · exact h
  · split
    · exact h
    · exact ((h.modOpenHour _).writeClock hc _).oweHourClose _ _

theorem takeHourDue (hc : .clock ∈ F) (hb : .previousBook ∈ F) (h : Writes F s t) :
    Writes F s (Machine.takeHourDue t) := by
  unfold Machine.takeHourDue
  split
  · exact h
  · rename_i hour due _
    have htaken := h.writeClock hc { t.clock with hoursDue := due }
    unfold takeWholeHour
    split
    · exact htaken
    · dsimp only
      split
      · exact htaken
      · have hclosed := fun b => htaken.closeOpenHour hc b
        refine openPresentHour ?_
        split
        · exact (hclosed _).dayClose hb
        · exact hclosed _

theorem addUnclocked (hm : .meters ∈ F) (m : Nat) (h : Writes F s t) : Writes F s (Machine.addUnclocked t m) := by
  unfold Machine.addUnclocked
  split
  · exact h
  · exact (h.putMeter hm m _).modOpenHour _

theorem firstSetting (hc : .clock ∈ F) (hm : .meters ∈ F) (d n : Nat) (h : Writes F s t) :
    Writes F s (Machine.firstSetting d n t) := by
  have hset := h.writeClock hc { t.clock with valid := true, dayCount := d, timeOfDay := n }
  exact modOpenHour _ (foldl (fun m h => h.addUnclocked hm m) _ (hset.openBook t.yardStock).openPresentHour)

theorem setForced (hc : .clock ∈ F) (hb : .previousBook ∈ F) (d n : Nat) (h : Writes F s t) :
    Writes F s (Machine.setForced d n t) := by
  have hclosed := h.closeOpenHour hc true
  unfold Machine.setForced
  dsimp only
  generalize Machine.closeOpenHour true t = v at hclosed
  have hset := hclosed.writeClock hc
  refine modOpenHour _ (openPresentHour ?_)
  split
  · exact hset _
  · split
    · exact hset _
    · exact (hset _).dayClose hb

theorem setUnforced (hc : .clock ∈ F) (d n : Nat) (h : Writes F s t) : Writes F s (Machine.setUnforced d n t).2 := by
  have hset := h.writeClock hc
  unfold Machine.setUnforced
  extract_lets old new ahead behind
  split_ifs
  · exact h
  · exact hset _
  · exact hset _
  · exact h

theorem setClockNow (hc : .clock ∈ F) (hb : .previousBook ∈ F) (hm : .meters ∈ F) (d n : Nat) (force : Bool)
    (h : Writes F s t) : Writes F s (Machine.setClockNow d n force t).2 := by
  unfold Machine.setClockNow
  split_ifs
  · exact h.firstSetting hc hm d n
  · exact h.setForced hc hb d n
  · exact h.setUnforced hc d n

theorem setClock (hc : .clock ∈ F) (hb : .previousBook ∈ F) (hm : .meters ∈ F) (f : List Byte) (h : Writes F s t) :
    Writes F s (Machine.setClock f t).state := by
  unfold Machine.setClock
  extract_lets d n
  split
  · exact h
  · exact h.setClockNow hc hb hm d n _

theorem collect (hb : .previousBook ∈ F) (h : Writes F s t) : Writes F s (Machine.collect t) :=
  (h.writePreviousBook hb _).records (.clearAlarm _ _)

/-! ### Updates of points (R3, R7, R8) -/

theorem handUpdate (hF : updating ⊆ F) (v : PointUpdate) (h : Writes F s t) : Writes F s (Machine.handUpdate v t) :=
  h.yard (meters_mem hF) (reckoning_subset hF) (.handUpdate v (.refl t))

theorem pointUpdated (hF : updating ⊆ F) (n : Nat) (x : Option Point) (v : PointUpdate) (h : Writes F s t) :
    Writes F s (Machine.handUpdate v (t.putPoint n x)) :=
  (h.putPoint (points_mem hF) n x).handUpdate hF v

theorem convertSample (hF : updating ⊆ F) (a : Nat) (body : List Byte) (h : Writes F s t) :
    Writes F s (Machine.convertSample a body t) := by
  unfold Machine.convertSample
  split
  · refine foldl (fun e h => ?_) _ h
    unfold takeEntry
    split
    · exact h
    · split
      · exact h
      · exact h.pointUpdated hF _ _ _
  · exact h

theorem stalePoints (hF : updating ⊆ F) (a : Nat) (h : Writes F s t) : Writes F s (Machine.stalePoints a t) := by
  refine foldl (fun n h => ?_) _ h
  unfold stalePoint
  split
  · exact h
  · split
    · exact h.pointUpdated hF _ _ _
    · exact h

/-- R16, R17: a point record written or emptied, and the former point handed on as NONE. -/
theorem pointReplaced (hF : updating ⊆ F) (n : Nat) (x former : Option Point) (h : Writes F s t) :
    Writes F s (handNone n former (t.putPoint n x)) := by
  unfold handNone
  split
  · exact h.putPoint (points_mem hF) n x
  · exact h.pointUpdated hF n x _

/-! ### The Relay Unit (R122 to R137) -/

theorem hear (hF : .strangers ∈ F) (a : Nat) (b : Branch) (h : Writes F s t) : Writes F s (Machine.hear a b t) := by
  unfold Machine.hear
  split
  · rename_i e _
    have hmoved : ∀ moved : Prop, ∀ [Decidable moved], Writes F s
        (if moved then raiseAlarm (alarmKey .stationMoved e.address) (t.modStation e.address (learnBranch b))
          else t.modStation e.address (learnBranch b)) := by
      intro moved _
      have hlearned := h.modStation e.address (learnBranch b)
      split
      · exact hlearned.records (.raiseAlarm _ _)
      · exact hlearned
    unfold hearStation
    dsimp only
    split
    · exact (hmoved _).modStation _ _
    · exact ((hmoved _).modStation _ _).records (.clearAlarm _ _)
  · unfold hearStranger
    split <;> exact h.writeStrangers hF _

theorem goSilent (hF : updating ⊆ F) (a : Nat) (h : Writes F s t) : Writes F s (Machine.goSilent a t) :=
  ((h.modStation a _).records (.raiseAlarm _ _)).stalePoints hF a

theorem forwardField (r : Received) (b : Branch) (urgent : Bool) (x : Option (List Byte)) (h : Writes F s t) :
    Writes F s (Machine.forwardField r b urgent x t) := by
  unfold Machine.forwardField
  split
  · exact h.freeBuffer _
  · split
    · split
      · exact h.freeBuffer _
      · exact h.enqueue _ _ _
    · exact h.freeBuffer _

theorem passField (p : Port) {pass : Received → Branch → State → State}
    (hp : ∀ {t : State} r b, Writes F s t → Writes F s (pass r b t)) (h : Writes F s t) :
    Writes F s (Machine.passField p pass t) := by
  unfold Machine.passField
  split
  · rename_i hr
    exact hp _ _ (h.takeReceived hr)
  · exact h

theorem passSample (hs : .strangers ∈ F) (hF : updating ⊆ F) (r : Received) (b : Branch) (h : Writes F s t) :
    Writes F s (Machine.passSample r b t) :=
  ((h.hear hs _ b).convertSample hF _ _).forwardField r b _ _

theorem interlockReply (a : Nat) (body : List Byte) (h : Writes F s t) :
    Writes F s (Machine.interlockReply a body t) := by
  unfold Machine.interlockReply
  split
  · exact h
  · exact h.takeValveStates _ _

theorem passReply (hs : .strangers ∈ F) (r : Received) (b : Branch) (h : Writes F s t) :
    Writes F s (Machine.passReply r b t) := by
  have hread := (h.hear hs (sourceOf r.octets) b).interlockReply (sourceOf r.octets) (bodyOf r.octets)
  unfold Machine.passReply
  dsimp only
  split
  · exact hread.forwardField r b _ _
  · have hcompleted := fun o => hread.completeOrder (sourceOf r.octets) o (bodyOf r.octets)
    split
    · unfold forwardCompletion
      split
      · exact (hcompleted _).enqueue _ _ _
      · exact (hcompleted _).freeBuffer _
    · exact (hcompleted _).freeBuffer _

theorem drainOne (hu : Machine.drainOne t = some u) (h : Writes F s t) : Writes F s u := by
  unfold Machine.drainOne at hu
  split at hu
  · cases hu
  · rename_i hr
    have htaken := h.takeReceived hr
    split at hu
    · split at hu
      · cases hu
        exact htaken.freeBuffer _
      · split at hu
        · cases hu
        · cases hu
          exact htaken.enqueue _ _ _
    · cases hu

theorem drain (h : Writes F s t) : Writes F s (Machine.drain t) := by
  unfold Machine.drain
  generalize t.line.received.length = n
  induction n generalizing t with
  | zero => exact h
  | succ n ih =>
    unfold drainOffice
    split
    · exact h
    · rename_i hv
      exact ih (drainOne hv h)

theorem forwardBoth (r : Received) (h : Writes F s t) : Writes F s (Machine.forwardBoth r t) := by
  have hown : ∀ p, Writes F s (ownCopy r p t) := fun p => h.enqueue p true _
  unfold Machine.forwardBoth
  split
  · unfold furtherCopy
    split
    · exact (hown .n).line (.modPort _ _ (.refl _))
    · rename_i hv
      exact (hown .n).line ((LineOnly.takeGeneral hv (.refl _)).holdingTest.enqueue _ _ _)
  · exact hown .n
  · exact hown .s
  · exact h.freeBuffer _

theorem refuseCommand (r : Received) (a : Nat) (x : RefusalReason) (h : Writes F s t) :
    Writes F s (Machine.refuseCommand r a x t) := (h.freeBuffer _).records (.oweFull _ _)

theorem dispatchCommand (r : Received) (a : Nat) (h : Writes F s t) : Writes F s (Machine.dispatchCommand r a t) := by
  unfold Machine.dispatchCommand
  split
  · split
    · have hplaced : Writes F s (placeOffice a (bodyOf r.octets) t) := h.rest rfl
      exact hplaced.freeBuffer _
    · exact h.refuseCommand r a _
  · split
    · unfold forwardOne
      split
      · exact h.enqueue _ _ _
      · exact h.freeBuffer _
    · exact h.forwardBoth r

theorem passCommand (r : Received) (h : Writes F s t) : Writes F s (Machine.passCommand r t) := by
  unfold Machine.passCommand
  dsimp only
  split
  · exact h.freeBuffer _
  · split
    · exact h.forwardBoth r
    · split
      · exact h.refuseCommand r _ _
      · exact h.dispatchCommand r _

theorem passOffice (h : Writes F s t) : Writes F s (Machine.passOffice t) := by
  unfold Machine.passOffice
  split
  · exact h
  · rename_i hr
    exact ((h.takeReceived hr).passCommand _).drain

/-! ### Sends (R66) -/

theorem attemptSend (a : Nat) (h : Writes F s t) : Writes F s (Machine.attemptSend a t) := by
  have hserved := h.serve a
  unfold Machine.attemptSend
  dsimp only
  split
  · exact hserved.rest rfl
  · rename_i hv
    have htaken := (hserved.line (takeForSend_some hv).2.2).line (.holdingTest (.refl _))
    exact foldl (fun b h => h.freeBuffer b) _ (htaken.sends (.makeSend _ _ _ _))

/-! ### The ports and the Local Converter (R14, R15, R140 to R145) -/

theorem modPort (p : Port) (f : PortState → PortState) (h : Writes F s t) : Writes F s (t.modPort p f) :=
  h.line (.modPort p f (.refl t))

theorem startReception (p : Port) (o : Byte) (faulty : Bool) (h : Writes F s t) :
    Writes F s (Machine.startReception p o faulty t) := by
  unfold Machine.startReception
  split
  · rename_i hv
    exact h.line ((LineOnly.takeGeneral hv (.refl _)).modPort _ _).holdingTest
  · exact h.modPort p _

theorem takeOctet (p : Port) (o : Byte) (faulty : Bool) (h : Writes F s t) :
    Writes F s (Machine.takeOctet p o faulty t) := by
  unfold Machine.takeOctet
  split
  · exact h
  · exact h.modPort p _
  · exact h.modPort p _

theorem goodTelegram (p : Port) (b : Buffer) (octets : List Byte) (h : Writes F s t) :
    Writes F s (Machine.goodTelegram p b octets t) := by
  have hcounted := h.modPort p (fun q => { q with good := countUp q.good })
  unfold Machine.goodTelegram
  dsimp only
  split
  · exact drain (hcounted.rest rfl)
  · exact hcounted.rest rfl

theorem endFrame (p : Port) (h : Writes F s t) : Writes F s (Machine.endFrame p t) := by
  have hidle : Writes F s (idleReceiver p t) := h.modPort p _
  unfold Machine.endFrame
  split
  · exact h
  · dsimp only
    split
    · exact hidle.goodTelegram p _ _
    · exact (hidle.modPort p _).freeBuffer _
  · exact hidle.modPort p _

theorem finishScan (hl : .localConverter ∈ F) (hF : updating ⊆ F) (codes : List Nat) (h : Writes F s t) :
    Writes F s (Machine.finishScan codes t) := by
  have hscanned := h.writeConverter hl { t.localConverter with scanning := false }
  have hconverted := hscanned.convertSample hF ownAddress (bodyOf (localSample t.localConverter codes))
  unfold Machine.finishScan
  dsimp only
  split
  · exact hconverted
  · unfold queueLocal
    split
    · exact hconverted
    · rename_i hv
      exact hconverted.line ((LineOnly.takeGeneral hv (.refl _)).holdingTest.enqueue _ _ _)

/-! ### Requests (R130 to R132, R169 to R173) -/

theorem judge (checks : List (Bool × ResultCode)) {act : State → State} (h : Writes F s t) (ha : Writes F s (act t)) :
    Writes F s (Machine.judge checks act t).state := by
  unfold Machine.judge
  split
  · exact h
  · exact ha

theorem answerRequest (code : Nat) {perform : List Byte → State → Performed}
    (hp : ∀ {t : State} f, Writes F s t → Writes F s (perform f t).state) (h : Writes F s t) :
    Writes F s (Machine.answerRequest code perform t) := by
  unfold Machine.answerRequest
  split
  · exact h
  · rename_i hr
    exact ((hp _ (h.takeReceived hr)).enqueue _ _ _).drain

theorem storeSettings (hF : .settings ∈ F) (x : Settings) (h : Writes F s t) :
    Writes F s (Machine.storeSettings x t) :=
  (h.writeSettings hF x).line (.holdingTest (.refl _))

theorem storePoint (hF : updating ⊆ F) (f : List Byte) (h : Writes F s t) : Writes F s (Machine.storePoint f t) := by
  unfold Machine.storePoint
  split
  · exact h.pointReplaced hF _ _ _
  · exact h

theorem storeStation (hF : .strangers ∈ F) (x : StationFields) (h : Writes F s t) :
    Writes F s (Machine.storeStation x t) := by
  unfold Machine.storeStation
  split
  · exact h.modStation _ _
  · exact (h.writeStrangers hF _).rest rfl

theorem removeStation (a : Nat) (h : Writes F s t) : Writes F s (Machine.removeStation a t) := by
  have hstopped := fun f => ((h.clearOrders a).endSequence a).modStation a f
  exact ((hstopped _).records (.clearAlarm _ _)).rest rfl

theorem setLocal (hl : .localConverter ∈ F) (hF : updating ⊆ F) (enable : Bool) (resolution period : Nat)
    (h : Writes F s t) : Writes F s (Machine.setLocal enable resolution period t) := by
  have hset := h.writeConverter hl
  unfold Machine.setLocal
  dsimp only
  split
  · exact hset _
  · split
    · exact hset _
    · exact (hset _).stalePoints hF _

theorem storeMeter (hm : .meters ∈ F) (f : List Byte) (h : Writes F s t) : Writes F s (Machine.storeMeter f t) := by
  unfold Machine.storeMeter
  split
  · exact h
  · dsimp only
    split <;> exact h.putMeter hm _ _

theorem readRequest (hF : .freeCount ∈ F) (f : List Byte) (h : Writes F s t) :
    Writes F s (Machine.readRequest f t).state := by
  unfold Machine.readRequest
  dsimp only
  split
  · exact h
  · split
    · exact h
    · split
      · exact h
      · exact (h.writeFreeCount hF _).rest rfl

theorem acknowledge (key : AlarmKey) (h : Writes F s t) : Writes F s (Machine.acknowledge key t) := by
  unfold Machine.acknowledge
  split
  · exact h
  · split
    · exact h.records ((RecordsOnly.dropAlarm _ _ _).trans (.settleAlarmOverflow _))
    · exact h.rest rfl

end Writes

end Sys2Proof.Frames
end

section
/-! SUPPORT. What each command writes of the pieces, restarts aside. -/

namespace Sys2Proof.Frames

open Sys2Proof Sys2Proof.Machine Sys2Proof.Laws

/-- The pieces that each command may write, restarts aside. -/
def footprint : Instr → List Piece
  | .sample _ => .strangers :: updating
  | .reply _ | .agingTimerExpiry _ | .loadStation => [.strangers]
  | .waitingTimerExpiry _ | .loadPoint | .dropPoint => updating
  | .settleTimerExpiry | .scanTimerExpiry => [.localConverter]
  | .scanComplete _ _ _ _ | .loadLocal => .localConverter :: updating
  | .loadSettings => [.settings]
  | .loadVapour => [.vapour]
  | .reset => [.unit]
  | .restartComplete => [.unit, .localConverter]
  | .clockSecond => [.clock]
  | .wholeHour => [.clock, .previousBook]
  | .setClock => [.clock, .previousBook, .meters]
  | .collectDay => [.previousBook]
  | .loadMeter => [.meters]
  | .loadHolder | .loadLift | .holderService => reckoning
  | .read => [.freeCount]
  | _ => []

/-! ### Restarts (R173, R174) -/

/-- Every piece outside a list stands as it stood, or did when a restart began. -/
def WritesOrRestarts (F : List Piece) (s t : State) : Prop :=
  Writes F s t ∨ ∃ u cause, Writes F s u ∧ t = beginRestart cause u

namespace WritesOrRestarts

variable {F : List Piece} {s t : State}

theorem beginPending (h : Writes F s t) : WritesOrRestarts F s (beginPending t) := by
  unfold Machine.beginPending
  split
  · exact .inr ⟨t, _, h, rfl⟩
  · exact .inl h

/-- R144: the actions at the end of a transmission, and the restart that the end of a RESET's ANSWER begins. -/
theorem endTransmission (p : Port) (h : Writes F s t) : WritesOrRestarts F s (endTransmission p t) := by
  unfold Machine.endTransmission
  split
  · exact .inl h
  · rename_i x _
    have hsent := fun f g => (((h.modPort p f).sends (.handCopyEnd x.tag _)).freeBuffer x.buffer).modPort p g
    unfold restartAfter
    split
    · exact beginPending (hsent _ _)
    · exact .inl (hsent _ _)

theorem ofArrival {arises : State → Bool} {act : State → State} (k : arrival arises act s = .next t)
    (h : WritesOrRestarts F s (act s)) : WritesOrRestarts F s t := by
  obtain rfl | ⟨-, -, rfl⟩ := arrival_cases k
  · exact .inl (.refl _)
  · exact h

theorem acts {arises : State → Bool} {act : State → State} (k : arrival arises act s = .next t)
    (h : Writes F s (act s)) : WritesOrRestarts F s t := ofArrival k (.inl h)

theorem performs {code : Nat} {perform : List Byte → State → Performed} (k : request code perform s = .next t)
    (hp : ∀ {t : State} f, Writes F s t → Writes F s (perform f t).state) : WritesOrRestarts F s t :=
  acts k ((Writes.refl s).answerRequest code hp)

end WritesOrRestarts

/-- R42: a close resumed at the completion of a restart. -/
theorem Writes.resumeClosure {F : List Piece} {s t : State} (k : Nat) (h : Writes F s t) :
    Writes F s (resumeClosure t k) := by
  unfold Machine.resumeClosure
  split
  · exact h
  · exact (h.handOver k).serve _

theorem Writes.completeRestart {F : List Piece} (hu : .unit ∈ F) (hl : .localConverter ∈ F) (s : State) :
    Writes F s (completeRestart s) := by
  unfold Machine.completeRestart
  split
  · have hstarted : Writes F s (startLocal (startWaiting (startPorts s))) := by
      have hports : Writes F s (startWaiting (startPorts s)) := (refl s).rest rfl
      unfold startLocal
      split
      · exact hports.writeConverter hl _
      · exact hports
    have hsteps : Writes F s (startSteps (startLocal (startWaiting (startPorts s)))) := hstarted.rest rfl
    exact foldl (fun k h => h.resumeClosure k) _ ((hsteps.writeUnit hu .ready).rest rfl)
  · exact refl s

/-! ### Commands -/

open WritesOrRestarts in
/-- Every command writes the pieces of its footprint, and no other until a restart begins. -/
theorem exec_writes {c : Instr} {s t : State} (k : exec c s = .next t) : WritesOrRestarts (footprint c) s t := by
  have start : Writes (footprint c) s s := .refl s
  cases c with
  | powerOn =>
    cases k
    exact .inr ⟨s, .power, start, rfl⟩
  | restartComplete =>
    cases k
    split
    · exact .inl (.completeRestart (.head _) (.tail _ (.head _)) s)
    · exact .inl start
  | receptionStart p o faulty => exact acts k (start.startReception p o faulty)
  | octetArrives p o faulty => exact acts (show execOctetArrives p o faulty s = _ from k) (start.takeOctet p o faulty)
  | frameEnd p => exact acts (show execFrameEnd p s = _ from k) (start.endFrame p)
  | transmitStart p => exact acts k (start.modPort p _)
  | transmissionComplete p => exact ofArrival (show execTransmissionComplete p s = _ from k) (endTransmission p start)
  | separationExpiry p => exact acts k (start.modPort p _)
  | repeatTimerExpiry =>
    exact acts (show execRepeatTimerExpiry s = _ from k) (start.line (LineOnly.refl s).sendHold.holdingTest)
  | sample p =>
    exact acts k (start.passField p fun r b h => h.passSample (.head _) (List.subset_cons_self ..) r b)
  | reply p => exact acts k (start.passField p fun r b h => h.passReply (.head _) r b)
  | officeCommand => exact acts k start.passOffice
  | waitingTimerExpiry a =>
    exact acts (show execWaitingTimerExpiry a s = _ from k) (start.goSilent (.refl _) a)
  | agingTimerExpiry a => exact acts (show execAgingTimerExpiry a s = _ from k) (start.writeStrangers (.head _) _)
  | orderSend a => exact acts k (start.attemptSend a)
  | replyTimerExpiry a => exact acts k (start.replyTimerExpired a)
  | reportSend => exact acts (show execReportSend s = _ from k) (start.sends (.sendReports _ _ s))
  | stepTimerExpiry d => exact acts (show execStepTimerExpiry d s = _ from k) (start.supply (.stepBoundary d s))
  | fogTimerExpiry d => exact acts (show execFogTimerExpiry d s = _ from k) (start.supply (.setFog _ _ s d))
  | clockSecond =>
    cases k
    split
    · exact .inl (start.advanceClock (.head _))
    · exact .inl start
  | wholeHour =>
    exact acts (show execWholeHour s = _ from k) (start.takeHourDue (.head _) (.tail _ (.head _)))
  | settleTimerExpiry => exact acts (show execSettleTimerExpiry s = _ from k) (start.writeConverter (.head _) _)
  | scanTimerExpiry => exact acts (show execScanTimerExpiry s = _ from k) (start.writeConverter (.head _) _)
  | scanComplete c0 c1 c2 c3 =>
    exact acts k (start.finishScan (.head _) (List.subset_cons_self ..) _)
  | loadSettings =>
    refine performs k fun f h => h.judge _ ?_
    split
    · exact h
    · exact h.storeSettings (.head _) _
  | loadStation => exact performs k fun f h => h.judge _ (h.storeStation (.head _) _)
  | dropStation => exact performs k fun f h => h.judge _ (h.removeStation _)
  | loadPoint => exact performs k fun f h => h.judge _ (h.storePoint (.refl _) f)
  | dropPoint => exact performs k fun f h => h.judge _ (h.pointReplaced (.refl _) _ _ _)
  | loadVapour => exact performs k fun f h => h.judge _ (h.writeVapour (.head _) _)
  | loadLocal =>
    exact performs k fun f h => h.judge _ (h.setLocal (.head _) (List.subset_cons_self ..) _ _ _)
  | loadHolder => exact performs k fun f h => h.judge _ (h.storeHolder (.refl _) f)
  | loadLift => exact performs k fun f h => h.judge _ (h.storeLift (.refl _) _ _ _)
  | holderService => exact performs k fun f h => h.judge _ (h.setService (.refl _) _ _)
  | loadDistrict => exact performs k fun f h => h.judge _ (h.supply (.storeDistrict f _))
  | loadProfile => exact performs k fun f h => h.judge _ (h.supply (.storeProfile _ _ _))
  | stepNow => exact performs k fun f h => h.judge _ (h.supply (.stepBoundary _ _))
  | districtMode => exact performs k fun f h => h.judge _ (h.supply (.changeMode _ _ _))
  | fog => exact performs k fun f h => h.judge _ (h.supply (.foldl (.setFog _ _) _ _))
  | loadMeter => exact performs k fun f h => h.judge _ (h.storeMeter (.head _) f)
  | setClock =>
    exact performs k fun f h => h.setClock (.head _) (.tail _ (.head _)) (.tail _ (.tail _ (.head _))) f
  | collectDay => exact performs k fun f h => h.judge _ (h.collect (.head _))
  | read => exact performs k fun f h => h.readRequest (.head _) f
  | ackAlarm => exact performs k fun f h => h.judge _ (h.acknowledge _)
  | reset => exact performs k fun f h => h.judge _ (h.writeUnit (.head _) _)
  | resetTimerExpiry => exact ofArrival (show execResetTimerExpiry s = _ from k) (beginPending start)

/-- A restart has begun, and is not complete. -/
theorem isRestarting_beginRestart (cause : RestartCause) (s : State) : isRestarting (beginRestart cause s) = true := by
  cases cause <;> rfl

/-- R174: the commands that wait stay in the queue over the beginning of a restart. -/
theorem beginRestart_pending (cause : RestartCause) (s : State) : (beginRestart cause s).pending = s.pending := by
  cases cause <;> rfl

/-- Outside a restart a command writes the pieces of its footprint, and no other. -/
theorem exec_writes_of_not_restarting {c : Instr} {s t : State} (k : exec c s = .next t)
    (hr : isRestarting t = false) : Writes (footprint c) s t := by
  obtain h | ⟨u, cause, -, rfl⟩ := exec_writes k
  · exact h
  · simp [isRestarting_beginRestart] at hr

/-! ### The pieces of the footprints

The table is unfolded whole by delta: the equations of its forty-six arms are not needed. -/

section Footprints

variable (c : Instr)

theorem pending_notMem_footprint : .pending ∉ footprint c := by
  delta footprint
  cases c <;> simp [updating, reckoning]

theorem lastCause_notMem_footprint : .lastCause ∉ footprint c := by
  delta footprint
  cases c <;> simp [updating, reckoning]

theorem settings_mem_footprint : .settings ∈ footprint c ↔ c = .loadSettings := by
  delta footprint
  cases c <;> simp [updating, reckoning]

theorem vapour_mem_footprint : .vapour ∈ footprint c ↔ c = .loadVapour := by
  delta footprint
  cases c <;> simp [updating, reckoning]

theorem unit_mem_footprint : .unit ∈ footprint c ↔ c = .reset ∨ c = .restartComplete := by
  delta footprint
  cases c <;> simp [updating, reckoning]

theorem clock_mem_footprint : .clock ∈ footprint c ↔ c = .clockSecond ∨ c = .wholeHour ∨ c = .setClock := by
  delta footprint
  cases c <;> simp [updating, reckoning]

theorem previousBook_mem_footprint :
    .previousBook ∈ footprint c ↔ c = .wholeHour ∨ c = .setClock ∨ c = .collectDay := by
  delta footprint
  cases c <;> simp [updating, reckoning]

theorem strangers_mem_footprint :
    .strangers ∈ footprint c ↔
      (∃ p, c = .sample p) ∨ (∃ p, c = .reply p) ∨ (∃ a, c = .agingTimerExpiry a) ∨ c = .loadStation := by
  delta footprint
  cases c <;> simp [updating, reckoning]

theorem localConverter_mem_footprint :
    .localConverter ∈ footprint c ↔
      c = .settleTimerExpiry ∨ c = .scanTimerExpiry ∨ (∃ c0 c1 c2 c3, c = .scanComplete c0 c1 c2 c3) ∨
        c = .loadLocal ∨ c = .restartComplete := by
  delta footprint
  cases c <;> simp [updating, reckoning]

theorem points_mem_footprint :
    .points ∈ footprint c ↔
      (∃ p, c = .sample p) ∨ (∃ c0 c1 c2 c3, c = .scanComplete c0 c1 c2 c3) ∨ (∃ a, c = .waitingTimerExpiry a) ∨
        c = .loadPoint ∨ c = .dropPoint ∨ c = .loadLocal := by
  delta footprint
  cases c <;> simp [updating, reckoning]

theorem meters_mem_footprint :
    .meters ∈ footprint c ↔ .points ∈ footprint c ∨ c = .loadMeter ∨ c = .setClock := by
  delta footprint
  cases c <;> simp [updating, reckoning]

theorem holders_mem_footprint :
    .holders ∈ footprint c ↔ .points ∈ footprint c ∨ c = .loadHolder ∨ c = .loadLift ∨ c = .holderService := by
  delta footprint
  cases c <;> simp [updating, reckoning]

/-- R32: the yard stock is formed afresh wherever a Holder Record is written. -/
theorem yardStock_mem_footprint : .yardStock ∈ footprint c ↔ .holders ∈ footprint c := by
  delta footprint
  cases c <;> simp [updating, reckoning]

theorem freeCount_mem_footprint : .freeCount ∈ footprint c ↔ c = .read := by
  delta footprint
  cases c <;> simp [updating, reckoning]

end Footprints

end Sys2Proof.Frames
end

section
/-! SUPPORT. The statements about the queue, and about which commands may change which state. -/

namespace Sys2Proof.Frames

open Sys2Proof Sys2Proof.Machine Sys2Proof.Laws

/-- Settles O1: a step is a match on the queue, whose front command it hands to exec. -/
theorem stepTakesFront : Obligations.StepTakesFront :=
  ⟨fun _ _ _ => rfl, fun s hempty => by simp only [step, hempty]⟩

/-- Settles O2: no footprint holds the queue, and the beginning of a restart keeps it. -/
theorem everyCommandAnswersNext : Obligations.EveryCommandAnswersNext := by
  intro c s
  obtain ⟨t, k⟩ := exec_next c s
  refine ⟨t, k, ?_⟩
  obtain h | ⟨u, cause, h, rfl⟩ := exec_writes k
  · exact h .pending (pending_notMem_footprint c)
  · exact (beginRestart_pending cause u).trans (h .pending (pending_notMem_footprint c))

/-- Settles O4: each piece stands outside the footprints that do not hold it. -/
theorem commandsKeepOtherState : Obligations.CommandsKeepOtherState := by
  intro c s t k hr
  have h := exec_writes_of_not_restarting k hr
  refine ⟨h .lastCause (lastCause_notMem_footprint c), fun hc => h .settings (mt (settings_mem_footprint c).mp hc),
    fun hc => h .vapour (mt (vapour_mem_footprint c).mp hc), fun h1 h2 => h .unit ?_, fun h1 h2 h3 => h .clock ?_,
    fun h1 h2 h3 => h .previousBook ?_, fun h1 h2 h3 h4 => h .strangers ?_,
    fun h1 h2 h3 h4 h5 => h .localConverter ?_, fun h1 h2 h3 h4 h5 h6 => ?_,
    fun hc => h .freeCount (mt (freeCount_mem_footprint c).mp hc)⟩
  · simp [unit_mem_footprint, h1, h2]
  · simp [clock_mem_footprint, h1, h2, h3]
  · simp [previousBook_mem_footprint, h1, h2, h3]
  · simp [strangers_mem_footprint, h1, h2, h3, h4]
  · simp [localConverter_mem_footprint, h1, h2, h3, h4, h5]
  · have hpoints : .points ∉ footprint c := by simp [points_mem_footprint, h1, h2, h3, h4, h5, h6]
    refine ⟨h .points hpoints, fun h7 h8 => h .meters ?_, fun h7 h8 h9 => ?_⟩
    · simp [meters_mem_footprint, hpoints, h7, h8]
    · have hholders : .holders ∉ footprint c := by simp [holders_mem_footprint, hpoints, h7, h8, h9]
      exact ⟨h .holders hholders, h .yardStock (mt (yardStock_mem_footprint c).mp hholders)⟩

end Sys2Proof.Frames
end

section
/-! SUPPORT. The OPENs that stand in the Station Directory, by the stations and valves they open, and that the Order
Unit's operations place no other. -/

namespace Sys2Proof.Opens

open Sys2Proof Sys2Proof.Machine Sys2Proof.Laws Sys2Proof.Directory

/-! ### Orders -/

/-- An order that opens a valve has the code OPEN, and the valve is one of seven. -/
theorem valveOrder_some {code v : Nat} {o : Order} (h : o.valveOrder code = some v) : o.code = some code ∧ v ≤ 6 := by
  unfold Order.valveOrder at h
  split at h
  · rename_i hbody
    obtain ⟨-, hcode⟩ := hbody
    obtain ⟨-, hle⟩ := Option.filter_eq_some_iff.mp h
    exact ⟨hcode, by simpa using hle⟩
  · cases h

theorem mem_orders {e : Station} {o : Order} : o ∈ e.orders ↔ e.slot.order? = some o ∨ o ∈ e.pendingList := by
  simp [Station.orders]

/-- R61: an order has the issuer and the body of another, of which it may be a further send. -/
def Repeats (o p : Order) : Prop := o.origin = p.origin ∧ o.body = p.body

namespace Repeats

variable {o p : Order}

theorem refl (o : Order) : Repeats o o := ⟨rfl, rfl⟩

theorem fromOffice_eq (h : Repeats o p) : o.fromOffice = p.fromOffice := by
  rw [Order.fromOffice, h.1, ← Order.fromOffice]

theorem code_eq (h : Repeats o p) : o.code = p.code := by rw [Order.code, h.2, ← Order.code]

theorem operand_eq (h : Repeats o p) : o.operand = p.operand := by rw [Order.operand, h.2, ← Order.operand]

theorem valveOrder_eq (h : Repeats o p) (code : Nat) : o.valveOrder code = p.valveOrder code := by
  rw [Order.valveOrder, h.2, h.code_eq, h.operand_eq, ← Order.valveOrder]

end Repeats

/-! ### The OPENs of the directory -/

/-- R64: every OPEN is the office's. Every OPEN of a valve v in the slot or list of a station a is one of those that
P a v names. -/
structure OpensWithin (P : Nat → Nat → Prop) (s : State) : Prop where
  fromOffice : ∀ e ∈ s.directory, ∀ o ∈ e.orders, o.fromOffice = false → o.code ≠ some codeOpen
  within : ∀ a e o v, s.station a = some e → o ∈ e.orders → o.valveOrder codeOpen = some v → P a v

namespace OpensWithin

variable {P Q : Nat → Nat → Prop} {s t u : State}

theorem mono (hPQ : ∀ a v, v ≤ 6 → P a v → Q a v) (h : OpensWithin P s) : OpensWithin Q s where
  fromOffice := h.fromOffice
  within := fun a e o v he ho hv => hPQ a v (valveOrder_some hv).2 (h.within a e o v he ho hv)

theorem of_directory (h : OpensWithin P s) (e : t.directory = s.directory) : OpensWithin P t where
  fromOffice := e ▸ h.fromOffice
  within := by
    simp only [State.station, e]
    exact h.within

theorem kept (h : OpensWithin P s) (k : DirectoryKept s t) : OpensWithin P t := h.of_directory k.1

theorem records (h : OpensWithin P s) (k : RecordsOnly s t) : OpensWithin P t := h.kept (.records k)

theorem line (h : OpensWithin P s) (k : LineOnly s t) : OpensWithin P t := h.of_directory k.directory

theorem foldl {α : Type} {f : State → α → State} (hf : ∀ {s : State} x, OpensWithin P s → OpensWithin P (f s x))
    (l : List α) (h : OpensWithin P s) : OpensWithin P (l.foldl f s) := by
  induction l generalizing s with
  | nil => exact h
  | cons x l ih => exact ih (hf x h)

/-- With every slot and list empty no OPEN stands. -/
theorem of_empty (h : ∀ e ∈ s.directory, e.orders = []) : OpensWithin P s where
  fromOffice := fun e he o ho => by simp [h e he] at ho
  within := fun a e o v he ho => by simp [h e (List.mem_of_find?_eq_some he)] at ho

/-- An entry may change its orders if each OPEN among them stood in it, or repeats one of its station's. -/
theorem modStation {a : Nat} {f : Station → Station} (hf : ∀ e, (f e).address = e.address)
    (ho : ∀ e o, o ∈ (f e).orders → o.code = some codeOpen →
      o ∈ e.orders ∨ ∃ q p, s.station a = some q ∧ p ∈ q.orders ∧ Repeats o p)
    (h : OpensWithin P s) : OpensWithin P (s.modStation a f) := by
  refine ⟨fun e' he' o hoe hauto hcode => ?_, fun k e' o v hk hoe hv => ?_⟩
  · obtain ⟨e, he, rfl⟩ := List.mem_map.mp he'
    split at hoe
    · obtain hold | ⟨q, p, hq, hp, hrepeat⟩ := ho e o hoe hcode
      · exact h.fromOffice e he o hold hauto hcode
      · exact h.fromOffice q (List.mem_of_find?_eq_some hq) p hp (hrepeat.fromOffice_eq ▸ hauto)
          (hrepeat.code_eq ▸ hcode)
    · exact h.fromOffice e he o hoe hauto hcode
  · rw [modStation_station _ _ _ _ hf] at hk
    obtain ⟨e, he, rfl⟩ := Option.map_eq_some_iff.mp hk
    split at hoe
    · rename_i hea
      obtain rfl : k = a := (station_address he).symm.trans (beq_iff_eq.mp hea)
      obtain hold | ⟨q, p, hq, hp, hrepeat⟩ := ho e o hoe (valveOrder_some hv).1
      · exact h.within k e o v he hold hv
      · exact h.within k q p v hq hp (hrepeat.valveOrder_eq codeOpen ▸ hv)
    · exact h.within k e o v he hoe hv

/-- An entry may change in other fields, or lose orders. -/
theorem subset (a : Nat) {f : Station → Station} (hf : ∀ e, (f e).address = e.address)
    (ho : ∀ e, (f e).orders ⊆ e.orders) (h : OpensWithin P s) : OpensWithin P (s.modStation a f) :=
  h.modStation hf fun e _ hoe _ => .inl (ho e hoe)

/-- A list written with no OPEN that its station does not have. -/
theorem setList {a : Nat} {l : List Order}
    (hl : ∀ o ∈ l, o.code = some codeOpen → ∃ q, s.station a = some q ∧ o ∈ q.orders) (h : OpensWithin P s) :
    OpensWithin P (setList a l s) := by
  refine h.modStation (fun _ => rfl) fun e o hoe hcode => ?_
  obtain hslot | hlist := mem_orders.mp hoe
  · exact .inl (mem_orders.mpr (.inl hslot))
  · obtain ⟨q, hq, hoq⟩ := hl o hlist hcode
    exact .inr ⟨q, o, hq, hoq, .refl o⟩

/-- A slot written with an order that its station has, or a further send of it. -/
theorem setSlot {a : Nat} {slot : Slot} {q : Station} (hq : s.station a = some q)
    (ho : ∀ o, slot.order? = some o → ∃ p ∈ q.orders, Repeats o p) (h : OpensWithin P s) :
    OpensWithin P (s.modStation a (fun e => { e with slot := slot })) := by
  refine h.modStation (fun _ => rfl) fun e o hoe _ => ?_
  obtain hslot | hlist := mem_orders.mp hoe
  · obtain ⟨p, hp, hrepeat⟩ := ho o hslot
    exact .inr ⟨q, p, hq, hp, hrepeat⟩
  · exact .inl (mem_orders.mpr (.inr hlist))

/-! ### Taking and clearing a slot (R66, R67, R70) -/

theorem takeHead_orders (e : Station) : e.takeHead.orders = e.orders := by
  unfold Station.takeHead
  split
  · rename_i hslot hlist
    simp [Station.orders, hslot, hlist, Slot.order?]
  · rfl

theorem serve (a : Nat) (h : OpensWithin P s) : OpensWithin P (serve a s) :=
  h.subset a (fun e => by rw [Yard.takeHead_only e]) fun e => takeHead_orders e ▸ List.Subset.refl _

theorem emptySlot (a : Nat) (h : OpensWithin P s) : OpensWithin P (emptySlot a s) :=
  (h.subset a (f := fun e => { e with slot := .empty }) (fun _ => rfl) fun _ _ ho =>
    mem_orders.mpr (.inr ((mem_orders.mp ho).resolve_left nofun))).of_directory rfl

theorem copyTransmitted (a n : Nat) (h : OpensWithin P s) : OpensWithin P (copyTransmitted a n s) := by
  refine h.subset a (fun e => ?_) fun e => ?_
  · repeat' split
    all_goals rfl
  · split
    · rename_i hslot
      split
      · split <;> simp [Station.orders, hslot, Slot.order?]
      · exact List.Subset.refl _
    · exact List.Subset.refl _

/-! ### Automatic orders (R64) -/

/-- An order of another code than OPEN. -/
theorem code_orderBody {code : Nat} (hcode : code < 256) (origin : Origin) (a operand sends entered : Nat) :
    (⟨origin, a, orderBody code operand, sends, entered⟩ : Order).code = some code := by
  simp [Order.code, orderCode, orderBody, octet, Nat.mod_eq_of_lt hcode]

/-- A list written, beside reports, of a station's waiting orders and one new order that is no OPEN. -/
theorem automaticListed {a : Nat} {q : Station} {o : Order} {l : List Order} (hq : s.station a = some q)
    (ho : o.code ≠ some codeOpen) (hl : ∀ x ∈ l, x = o ∨ x ∈ q.pendingList) (ht : t.directory = s.directory)
    (h : OpensWithin P s) : OpensWithin P (Machine.setList a l t) := by
  refine setList (fun x hx hopen => ⟨q, ?_, ?_⟩) (h.of_directory ht)
  · rw [State.station, ht]
    exact hq
  · obtain rfl | hold := hl x hx
    · exact absurd hopen ho
    · exact mem_orders.mpr (.inr hold)

theorem placeClose (a v : Nat) (cause : SupersessionCause) (h : OpensWithin P s) :
    OpensWithin P (placeClose a v cause s) := by
  unfold Machine.placeClose
  split
  · exact h
  · rename_i q hq
    have hclose := code_orderBody (code := codeClose) (by decide) .interlock a v 0 s.serial
    have hcode : some codeClose ≠ some codeOpen := by decide
    dsimp only
    split
    · exact h.automaticListed hq (hclose ▸ hcode)
        (fun x hx => (List.mem_cons.mp hx).imp_right fun hold => List.dropLast_subset _ hold)
        (Yard.supersede_foldl_directory cause _ (nextSerial s))
    · exact h.automaticListed hq (hclose ▸ hcode) (fun x hx => List.mem_cons.mp hx) rfl

theorem removeFirst_subset {p : Order → Bool} {l rest : List Order} {o : Order} (h : removeFirst p l = some (o, rest)) :
    rest ⊆ l := by
  rw [removeFirst_eq] at h
  obtain ⟨q, -, hq⟩ := Option.map_eq_some_iff.mp h
  cases hq
  exact List.erase_subset

theorem makeRoom_subset (l : List Order) (s : State) : (makeRoom l s).1 ⊆ l := by
  unfold makeRoom
  split
  · exact List.Subset.refl l
  · split
    · rename_i hfirst
      exact removeFirst_subset hfirst
    · exact List.drop_subset 1 l

theorem mem_replaceSets {o x : Order} {l : List Order} {placed : Bool} (h : x ∈ replaceSets o l placed) :
    x = o ∨ x ∈ l := by
  induction l generalizing placed with
  | nil => cases placed <;> simp_all [replaceSets]
  | cons q l ih =>
    unfold replaceSets at h
    split at h
    · split at h
      · exact (ih h).imp_right (List.mem_cons_of_mem q)
      · obtain rfl | hrest := List.mem_cons.mp h
        · exact .inl rfl
        · exact (ih hrest).imp_right (List.mem_cons_of_mem q)
    · obtain rfl | hrest := List.mem_cons.mp h
      · exact .inr (.head l)
      · exact (ih hrest).imp_right (List.mem_cons_of_mem q)

theorem placeSet (a d v : Nat) (h : OpensWithin P s) : OpensWithin P (placeSet a d v s) := by
  unfold Machine.placeSet
  split
  · exact h
  · rename_i q hq
    have hset := code_orderBody (code := codeSet) (by decide) (.scheduler d) a v 0 s.serial
    have hcode : some codeSet ≠ some codeOpen := by decide
    have hdirectory := Yard.supersede_foldl_directory .governor (q.pendingList.filter Order.isSet) (nextSerial s)
    dsimp only
    split
    · exact serve a (h.automaticListed hq (hset ▸ hcode) (fun x hx => mem_replaceSets hx) hdirectory)
    · refine serve a (h.automaticListed hq (hset ▸ hcode) (fun x hx => ?_)
        ((Yard.makeRoom_directory _ _).trans hdirectory))
      obtain hold | hnew := List.mem_append.mp hx
      · exact .inr (makeRoom_subset _ _ hold)
      · exact .inl (List.mem_singleton.mp hnew)

theorem placeRelease (a d : Nat) (h : OpensWithin P s) : OpensWithin P (placeRelease a d s) := by
  unfold Machine.placeRelease
  split
  · exact h
  · rename_i q hq
    have hrelease := code_orderBody (code := codeRelease) (by decide) (.scheduler d) a 0 0 s.serial
    have hcode : some codeRelease ≠ some codeOpen := by decide
    refine serve a (h.automaticListed hq (hrelease ▸ hcode) (fun x hx => ?_) (Yard.makeRoom_directory _ _))
    obtain hold | hnew := List.mem_append.mp hx
    · exact .inr (List.mem_of_mem_filter (makeRoom_subset _ _ hold))
    · exact .inl (List.mem_singleton.mp hnew)

end OpensWithin

end Sys2Proof.Opens
end

section
/-! SUPPORT. What the Account Unit writes for a point, and that the Pressure Scheduler, the Valve Interlock Unit and the
endings of orders place no OPEN. -/

namespace Sys2Proof.Opens

open Sys2Proof Sys2Proof.Machine Sys2Proof.Laws Sys2Proof.Directory

/-! ### Accounts of an update (R89, R107 to R114) -/

/-- Nothing but the Alarm List, the Report Backlog, the meters and the current book has changed. -/
def AccountsOnly (s t : State) : Prop :=
  t = { s with
    alarms := t.alarms, alarmOverflow := t.alarmOverflow, backlog := t.backlog, backlogOverflow := t.backlogOverflow
    meters := t.meters, currentBook := t.currentBook }

namespace AccountsOnly

variable {s t u : State}

theorem refl (s : State) : AccountsOnly s s := rfl

theorem trans (h : AccountsOnly s t) (k : AccountsOnly t u) : AccountsOnly s u := by
  unfold AccountsOnly at *
  rw [k, h]

theorem directory (h : AccountsOnly s t) : t.directory = s.directory := (congrArg State.directory h :)
theorem holders (h : AccountsOnly s t) : t.holders = s.holders := (congrArg State.holders h :)

theorem of_records (h : RecordsOnly s t) : AccountsOnly s t := by
  unfold RecordsOnly at h
  rw [h]
  rfl

theorem foldl {α : Type} {f : State → α → State} (hf : ∀ s x, AccountsOnly s (f s x)) (l : List α) (s : State) :
    AccountsOnly s (l.foldl f s) := by
  induction l generalizing s with
  | nil => exact refl s
  | cons x l ih => exact (hf s x).trans (ih _)

theorem account (m : Nat) (r : Meter) (v e : Nat) (f : HourFlags) (s : State) :
    AccountsOnly s (account m r v e f s) := by
  unfold Machine.account
  split <;> rfl

theorem takeCount (m c : Nat) (s : State) : AccountsOnly s (takeCount m c s) := by
  unfold Machine.takeCount
  split
  · exact refl s
  · have hput : ∀ x, AccountsOnly s (s.putMeter m x) := fun x => rfl
    dsimp only
    split
    · exact hput _
    · split
      · exact ((hput _).trans (of_records (.raiseAlarm _ _))).trans (account _ _ _ _ _ _)
      · exact (account _ _ _ _ _ s).trans (of_records (.clearAlarm _ _))

theorem loseCount (m : Nat) (s : State) : AccountsOnly s (loseCount m s) := by
  unfold Machine.loseCount
  split
  · exact refl s
  · exact account _ _ _ _ _ s

theorem takePeriod (m p : Nat) (s : State) : AccountsOnly s (takePeriod m p s) := by
  unfold Machine.takePeriod
  split
  · exact refl s
  · dsimp only
    split <;> rfl

theorem meterUpdate (u : PointUpdate) (s : State) (m : Nat) : AccountsOnly s (meterUpdate u s m) := by
  have hcount : AccountsOnly s (meterCountUpdate u m s) := by
    unfold meterCountUpdate
    split
    · exact takeCount m _ s
    · exact loseCount m s
    · exact loseCount m s
    · exact refl s
  have hperiod : ∀ v, AccountsOnly v (meterPeriodUpdate u m v) := by
    intro v
    unfold meterPeriodUpdate
    split
    · exact takePeriod m _ v
    · exact refl v
  unfold Machine.meterUpdate
  split
  · exact refl s
  · dsimp only
    split_ifs
    · exact hcount.trans (hperiod _)
    · exact hperiod s
    · exact hcount
    · exact refl s

theorem tellTaleUpdate (u : PointUpdate) (s : State) (d : Nat) : AccountsOnly s (tellTaleUpdate u s d) := by
  unfold Machine.tellTaleUpdate
  split
  · exact refl s
  · split
    · split <;> rfl
    · exact refl s

/-- R7: after the Stock Reckoning Unit an update is the Account Unit's, and then the Pressure Scheduler's. -/
theorem updates (u : PointUpdate) (s : State) : AccountsOnly s (schedulerUpdate u (accountUpdate u s)) :=
  (foldl (meterUpdate u) _ s).trans (foldl (tellTaleUpdate u) _ _)

theorem addUnclocked (s : State) (m : Nat) : AccountsOnly s (addUnclocked s m) := by
  unfold Machine.addUnclocked
  split <;> rfl

end AccountsOnly

namespace OpensWithin

variable {P : Nat → Nat → Prop} {s t u : State}

theorem accounts (h : OpensWithin P s) (k : AccountsOnly s t) : OpensWithin P t := h.of_directory k.directory

/-! ### The Pressure Scheduler (R83, R85 to R97) -/

theorem setFailed (raise : Bool) (d a : Nat) (h : OpensWithin P s) : OpensWithin P (setFailed raise d a s) := by
  have hraised : OpensWithin P (if raise then raiseAlarm (alarmKey .orderFailed d) s else s) := by
    split
    · exact h.records (.raiseAlarm _ s)
    · exact h
  unfold Machine.setFailed
  dsimp only
  split
  · exact hraised
  · split
    · exact hraised.of_directory rfl
    · exact hraised

theorem issueRelease (d : Nat) (h : OpensWithin P s) : OpensWithin P (issueRelease d s) := by
  unfold Machine.issueRelease
  split
  · exact h
  · split
    · exact h.records (.raiseAlarm _ s)
    · exact h.placeRelease _ d

theorem writeActive (d v : Nat) (h : OpensWithin P s) : OpensWithin P (writeActive d v s) := by
  unfold Machine.writeActive
  split
  · exact h
  · split
    · exact h
    · exact h.of_directory rfl

theorem sendDecision (d : Nat) (h : OpensWithin P s) : OpensWithin P (sendDecision d s) := by
  unfold Machine.sendDecision
  split
  · exact h
  · split
    · exact h
    · split
      · unfold issueSet
        split
        · exact h
        · split
          · exact h.setFailed true d _
          · exact h.placeSet _ d _
      · exact h

theorem clampActive (d : Nat) (h : OpensWithin P s) : OpensWithin P (clampActive d s) := by
  unfold Machine.clampActive
  split
  · exact h
  · rename_i r _
    split
    · exact h
    · split
      · have hwritten := h.writeActive d r.supplyLimit
        refine sendDecision d ?_
        split
        · exact hwritten.records (.raiseAlarm _ _)
        · exact hwritten
      · exact h

theorem recomputeDistrict (d : Nat) (h : OpensWithin P s) : OpensWithin P (recomputeDistrict s d) := by
  unfold Machine.recomputeDistrict
  split
  · exact h
  · rename_i r _
    have hput : ∀ x, OpensWithin P (s.putDistrict d x) := fun x => h.of_directory rfl
    have hchanged : ∀ b x, OpensWithin P (supplyStateChanged d b (s.putDistrict d x)) := by
      intro b x
      unfold supplyStateChanged
      cases b
      · exact ((hput x).records (.raiseAlarm _ _)).records (.oweReference _ _)
      · exact ((hput x).records (.clearAlarm _ _)).records (.oweReference _ _)
    dsimp only
    split
    · exact h
    · refine clampActive d ?_
      split
      · exact hput _
      · exact hchanged _ _

theorem recomputeSupply (h : OpensWithin P s) : OpensWithin P (recomputeSupply s) :=
  foldl (fun d h => h.recomputeDistrict d) _ h

theorem handOutletSet (k : Nat) (set : DistrictSet) (h : OpensWithin P s) : OpensWithin P (handOutletSet k set s) :=
  recomputeSupply (h.kept (.writeOutletSet k set s))

theorem stepComputation (d : Nat) (h : OpensWithin P s) : OpensWithin P (stepComputation d s) := by
  have hjudged : ∀ r bounded, OpensWithin P (judgeShort d r bounded (s.putDistrict d r)) := by
    intro r bounded
    have hput : OpensWithin P (s.putDistrict d r) := h.of_directory rfl
    unfold judgeShort
    split_ifs
    · exact hput
    · exact hput.records (.raiseAlarm _ _)
    · exact hput.records (.clearAlarm _ _)
  unfold Machine.stepComputation
  split
  · exact h
  · exact sendDecision d (writeActive d _ (hjudged _ _))

theorem stepBoundary (d : Nat) (h : OpensWithin P s) : OpensWithin P (stepBoundary d s) := by
  unfold Machine.stepBoundary
  split
  · exact h
  · have hput : ∀ x, OpensWithin P (s.putDistrict d x) := fun x => h.of_directory rfl
    dsimp only
    split
    · exact (hput _).stepComputation d
    · exact hput _

theorem governorCompletion (d a : Nat) (o : Order) (reply : List Byte) (h : OpensWithin P s) :
    OpensWithin P (governorCompletion d a o reply s) := by
  unfold Machine.governorCompletion
  split
  · exact h
  · split
    · exact h
    · have hput : ∀ x, OpensWithin P (s.putDistrict d x) := fun x => h.of_directory rfl
      have hwritten : ∀ (m : Mode) x v, OpensWithin P
          (if m = .auto then s.putDistrict d x else Machine.writeActive d v (s.putDistrict d x)) := by
        intro m x v
        split
        · exact hput x
        · exact (hput x).writeActive d v
      dsimp only
      split
      · split
        · split
          · exact (hwritten _ _ _).records (.oweReference _ _)
          · exact hwritten _ _ _
        · exact hput _
      · exact hput _

theorem judgeOrderFailed (d : Nat) (reply : List Byte) (h : OpensWithin P s) :
    OpensWithin P (judgeOrderFailed d reply s) := by
  unfold Machine.judgeOrderFailed
  split
  · exact h.records (.clearAlarm _ s)
  · exact h.records (.raiseAlarm _ s)

/-! ### The Valve Interlock Unit (R45, R46, R54 to R58) -/

theorem formOutletSet (k : Nat) (h : OpensWithin P s) : OpensWithin P (formOutletSet k s) := by
  unfold Machine.formOutletSet
  split
  · exact h
  · have hput : ∀ x, OpensWithin P (s.putRouting k x) := fun x => h.of_directory rfl
    dsimp only
    split
    · exact h
    · exact (hput _).handOutletSet k _

theorem takeValveStates (k : Nat) (body : List Byte) (h : OpensWithin P s) :
    OpensWithin P (takeValveStates k body s) := by
  unfold Machine.takeValveStates
  split
  · split
    · exact h
    · have hput : ∀ x, OpensWithin P (s.putRouting k x) := fun x => h.of_directory rfl
      refine foldl (fun v h => ?_) _ ((hput _).formOutletSet k)
      split
      · exact h.records (.clearAlarm _ _)
      · exact h
  · exact h

theorem closeOutcome (k v : Nat) (success : Bool) (h : OpensWithin P s) :
    OpensWithin P (closeOutcome k v success s) := by
  unfold Machine.closeOutcome
  split
  · exact h
  · split
    · exact h
    · have hput : ∀ x, OpensWithin P (s.putRouting k x) := fun x => h.of_directory rfl
      exact ((hput _).formOutletSet k).records (.raiseAlarm _ _)

theorem setSequence (k : Nat) (l : List Closure) (n : Option Nat) (h : OpensWithin P s) :
    OpensWithin P (setSequence k l n s) := by
  unfold Machine.setSequence
  split
  · exact h
  · exact h.of_directory rfl

theorem handFront (k a : Nat) (l : List Closure) (h : OpensWithin P s) : OpensWithin P (handFront k a l s) := by
  induction l generalizing s with
  | nil => exact h.setSequence k _ _
  | cons c l ih =>
    unfold Machine.handFront
    split
    · exact h
    · split
      · exact ih h
      · split
        · exact ih ((h.setSequence k _ _).closeOutcome k _ _)
        · exact (h.setSequence k _ _).placeClose a _ _

theorem handOver (k : Nat) (h : OpensWithin P s) : OpensWithin P (handOver k s) := by
  unfold Machine.handOver
  split
  · split
    · exact h
    · exact h.handFront k _ _
  · exact h

theorem closeEnded (k : Nat) (o : Order) (done resume : Bool) (h : OpensWithin P s) :
    OpensWithin P (closeEnded k o done resume s) := by
  unfold Machine.closeEnded
  split
  · exact h
  · split
    · split
      · exact h
      · have hjudged := fun l v success => (h.setSequence k l none).closeOutcome k v success
        dsimp only
        split
        · exact (hjudged _ _ _).handOver k
        · exact hjudged _ _ _
    · exact h

theorem dropSequence (k : Nat) (l : List Closure) (h : OpensWithin P s) : OpensWithin P (dropSequence k l s) := by
  induction l generalizing s with
  | nil => exact h.setSequence k _ _
  | cons c l ih =>
    unfold Machine.dropSequence
    split
    · exact h
    · exact ih ((h.setSequence k _ _).closeOutcome k _ _)

theorem endSequence (a : Nat) (h : OpensWithin P s) : OpensWithin P (endSequence a s) := by
  unfold Machine.endSequence
  split
  · exact h
  · split
    · exact h
    · exact h.dropSequence _ _

theorem addClosures (k : Nat) (cause : SupersessionCause) (v : Option Nat) (h : OpensWithin P s) :
    OpensWithin P (addClosures k cause v s) := by
  unfold Machine.addClosures
  split
  · exact h
  · exact h.of_directory rfl

/-! ### Endings of orders (R68 to R72, R76) -/

theorem handCloseEnding (o : Order) (done resume : Bool) (h : OpensWithin P s) :
    OpensWithin P (handCloseEnding o done resume s) := by
  unfold Machine.handCloseEnding
  split
  · exact h
  · exact h.closeEnded _ o done resume

theorem orderFailed (o : Order) (h : OpensWithin P s) : OpensWithin P (orderFailed o s) := by
  unfold Machine.orderFailed
  split
  · exact h.records (.oweFull _ s)
  · exact h.handCloseEnding o false true
  · split
    · exact h.setFailed true _ _
    · exact h.records (.raiseAlarm _ s)

/-- R68: a repeat send is of the order in the slot. -/
theorem replyTimerExpired (a : Nat) (h : OpensWithin P s) : OpensWithin P (replyTimerExpired a s) := by
  unfold Machine.replyTimerExpired
  split
  · exact h
  · rename_i q hq
    split
    · rename_i o n hslot
      split
      · refine h.setSlot hq fun x hx => ?_
        cases hx
        exact ⟨o, mem_orders.mpr (.inl (by rw [hslot, Slot.order?])), .refl o⟩
      · exact serve a (orderFailed o (h.emptySlot a))
    · exact h

theorem completeOrder (a : Nat) (o : Order) (body : List Byte) (h : OpensWithin P s) :
    OpensWithin P (completeOrder a o body s) := by
  have hemptied := h.emptySlot a
  unfold Machine.completeOrder
  refine serve a ?_
  split
  · unfold officeCompletion
    split
    · split
      · exact hemptied
      · exact hemptied.governorCompletion _ _ o body
    · exact hemptied
  · unfold automaticCompletion
    split
    · exact hemptied
    · exact hemptied.handCloseEnding o _ true
    · exact (hemptied.governorCompletion _ _ o body).judgeOrderFailed _ body

theorem clearOrders (a : Nat) (h : OpensWithin P s) : OpensWithin P (clearOrders a s) := by
  unfold Machine.clearOrders
  split
  · exact h
  · refine foldl (fun o h => ?_) _ ((h.emptySlot a).setList nofun)
    unfold clearOrder
    split
    · exact h.records (.oweFull _ _)
    · exact h
    · split
      · exact h.setFailed false _ _
      · exact h

end OpensWithin

end Sys2Proof.Opens
end

section
/-! SUPPORT. That sends, reports, freeings, what is heard and forwarded, the ports, the day books, the requests about
districts, stations, meters and the clock, and the completion of a restart place no OPEN. -/

namespace Sys2Proof.Opens

open Sys2Proof Sys2Proof.Machine Sys2Proof.Laws Sys2Proof.Directory

namespace OpensWithin

variable {P : Nat → Nat → Prop} {s t u : State}

/-! ### Sends, reports and freeings (R66, R67, R153, R154, R167) -/

/-- R66, R67: a send made leaves its order in the slot, with one send more. -/
theorem makeSend {a : Nat} {e : Station} {o : Order} (bs : List Buffer) (he : s.station a = some e)
    (ho : waitingOrder e = some o) (h : OpensWithin P s) : OpensWithin P (makeSend e o bs s).2 := by
  have hslot : e.slot.order? = some o := by
    unfold waitingOrder at ho
    split at ho
    · rename_i hslot
      rw [hslot]
      exact ho
    · cases ho
  have hqueued := LineOnly.queueCopies { o with sends := o.sends + 1 } s.serial ((copyPorts e.branch).zip bs)
    (.refl (nextSerial s))
  have hserial : OpensWithin P (nextSerial s) := h.of_directory rfl
  refine (hserial.line hqueued).setSlot (q := e) ((hqueued.station _).trans (station_address he ▸ he)) fun x hx => ?_
  refine ⟨o, mem_orders.mpr (.inl hslot), ?_⟩
  split at hx <;> cases hx <;> exact ⟨rfl, rfl⟩

theorem sendPart {test : Bool} (k : sendPart test s = some t) (h : OpensWithin P s) : OpensWithin P t := by
  unfold Machine.sendPart at k
  split at k
  · cases k
  · dsimp only at k
    split at k
    · cases k
      exact h.kept (.retireHead _ _ s)
    · split at k
      · cases k
      · rename_i v hv
        have htaken : LineOnly s (if test = true then holdingTest v else v) := by
          split
          · exact (Part.takeForReport hv).holdingTest
          · exact Part.takeForReport hv
        split at k
        · cases k
          exact (h.line (htaken.enqueue _ _ _)).kept (.retireHead _ _ _)
        · cases k
          exact (h.line htaken).of_directory rfl

theorem sendReports (test : Bool) (n : Nat) (h : OpensWithin P s) : OpensWithin P (sendReports test n s) := by
  induction n generalizing s with
  | zero => exact h
  | succ n ih =>
    unfold Machine.sendReports
    split
    · exact h
    · split
      · rename_i hv
        exact ih (h.sendPart hv)
      · unfold claimForBacklog
        split
        · exact h
        · exact h.of_directory rfl

theorem offerClaim {c : Claim} {bs : List Buffer} (k : offerClaim c s = some (bs, t)) (h : OpensWithin P s) :
    OpensWithin P t := by
  cases c with
  | send a =>
    simp only [Machine.offerClaim] at k
    split at k
    · cases k
    · rename_i e o bs' v hv
      obtain ⟨he, ho, hline⟩ := takeForSend_some hv
      have hwithdrawn : OpensWithin P (withdrawClaim (.send a) v) := (h.line hline).of_directory rfl
      rw [← show (Machine.makeSend e o bs' (withdrawClaim (.send a) v)).2 = t from
        congrArg Prod.snd (Option.some.inj k)]
      exact hwithdrawn.makeSend bs' ((hline.station a).trans he) ho
  | backlog =>
    simp only [Machine.offerClaim] at k
    split at k
    · cases k
    · rename_i v hv
      cases k
      have hwithdrawn : OpensWithin P (withdrawClaim .backlog v) := (h.sendPart hv).of_directory rfl
      exact hwithdrawn.sendReports false reportFuel

theorem offerPass (l : List Claim) (h : OpensWithin P s) : OpensWithin P (offerPass l s).2 := by
  induction l generalizing s with
  | nil => exact h
  | cons c l ih =>
    unfold Machine.offerPass
    split
    · split
      · exact ih h
      · rename_i hv
        exact ih (h.offerClaim hv)
      · rename_i hv
        exact h.offerClaim hv
    · exact ih h

theorem freeing (n : Nat) (b : Buffer) (h : OpensWithin P s) : OpensWithin P (freeing n b s) := by
  have hreleased := h.line (.releaseBuffer b (.refl s))
  induction n generalizing b s with
  | zero => exact hreleased.line (.holdingTest (.refl _))
  | succ n ih =>
    have hfreed := foldl (fun b h => ih b h (h.line (.releaseBuffer b (.refl _))))
      (Machine.offerPass (releaseBuffer b s).claims (releaseBuffer b s)).1
      (hreleased.offerPass (releaseBuffer b s).claims)
    exact hfreed.line (.holdingTest (.refl _))

theorem freeBuffer (b : Buffer) (h : OpensWithin P s) : OpensWithin P (freeBuffer b s) := h.freeing _ b

theorem attemptSend (a : Nat) (h : OpensWithin P s) : OpensWithin P (attemptSend a s) := by
  have hserved := h.serve a
  unfold Machine.attemptSend
  dsimp only
  split
  · exact hserved.of_directory rfl
  · rename_i hv
    obtain ⟨he, ho, hline⟩ := takeForSend_some hv
    have htested := hline.holdingTest
    exact foldl (fun b h => h.freeBuffer b) _
      ((hserved.line htested).makeSend _ ((htested.station a).trans he) ho)

/-! ### The Relay Unit (R122 to R137) -/

theorem hear (a : Nat) (b : Branch) (h : OpensWithin P s) : OpensWithin P (hear a b s) := by
  unfold Machine.hear
  split
  · rename_i e _
    have hlearned : OpensWithin P (s.modStation e.address (learnBranch b)) := by
      refine h.subset _ (fun e => ?_) fun e => ?_
      · exact (Part.learnBranch_keeps b e).1
      · unfold learnBranch
        split
        · exact List.Subset.refl _
        · split <;> exact List.Subset.refl _
    have hmoved : ∀ moved : Prop, ∀ [Decidable moved], OpensWithin P
        (if moved then raiseAlarm (alarmKey .stationMoved e.address) (s.modStation e.address (learnBranch b))
          else s.modStation e.address (learnBranch b)) := by
      intro moved _
      split
      · exact hlearned.records (.raiseAlarm _ _)
      · exact hlearned
    have hmarked : ∀ {v : State}, OpensWithin P v → OpensWithin P (v.modStation e.address (markHeard v.timeNow)) :=
      fun h => h.subset _ (fun _ => rfl) fun _ => List.Subset.refl _
    unfold hearStation
    dsimp only
    split
    · exact hmarked (hmoved _)
    · exact (hmarked (hmoved _)).records (.clearAlarm _ _)
  · unfold hearStranger
    split <;> exact h.of_directory rfl

theorem enqueue (p : Port) (urgent : Bool) (x : Telegram) (h : OpensWithin P s) :
    OpensWithin P (enqueue p urgent x s) := h.line (.enqueue p urgent x (.refl s))

theorem takeReceived {p : Port} {r : Received} (k : takeReceived p s = some (r, t)) (h : OpensWithin P s) :
    OpensWithin P t := h.line (Part.takeReceived k)

theorem forwardField (r : Received) (b : Branch) (urgent : Bool) (x : Option (List Byte)) (h : OpensWithin P s) :
    OpensWithin P (forwardField r b urgent x s) := by
  unfold Machine.forwardField
  split
  · exact h.freeBuffer _
  · split
    · split
      · exact h.freeBuffer _
      · exact h.enqueue _ _ _
    · exact h.freeBuffer _

theorem passReply (r : Received) (b : Branch) (h : OpensWithin P s) : OpensWithin P (passReply r b s) := by
  have hread : OpensWithin P
      (interlockReply (sourceOf r.octets) (bodyOf r.octets) (Machine.hear (sourceOf r.octets) b s)) := by
    unfold interlockReply
    split
    · exact h.hear _ b
    · exact (h.hear _ b).takeValveStates _ _
  unfold Machine.passReply
  dsimp only
  split
  · exact hread.forwardField r b _ _
  · have hcompleted := fun o => hread.completeOrder (sourceOf r.octets) o (bodyOf r.octets)
    split
    · unfold forwardCompletion
      split
      · exact (hcompleted _).enqueue _ _ _
      · exact (hcompleted _).freeBuffer _
    · exact (hcompleted _).freeBuffer _

theorem passField (p : Port) {pass : Received → Branch → State → State}
    (hp : ∀ {s : State} r b, OpensWithin P s → OpensWithin P (pass r b s)) (h : OpensWithin P s) :
    OpensWithin P (passField p pass s) := by
  unfold Machine.passField
  split
  · rename_i hr
    exact hp _ _ (h.takeReceived hr)
  · exact h

theorem drainOne (k : drainOne s = some t) (h : OpensWithin P s) : OpensWithin P t := by
  unfold Machine.drainOne at k
  split at k
  · cases k
  · rename_i hr
    have htaken := h.takeReceived hr
    split at k
    · split at k
      · cases k
        exact htaken.freeBuffer _
      · split at k
        · cases k
        · cases k
          exact htaken.enqueue _ _ _
    · cases k

theorem drain (h : OpensWithin P s) : OpensWithin P (drain s) := by
  unfold Machine.drain
  generalize s.line.received.length = n
  induction n generalizing s with
  | zero => exact h
  | succ n ih =>
    unfold drainOffice
    split
    · exact h
    · rename_i hv
      exact ih (h.drainOne hv)

theorem forwardBoth (r : Received) (h : OpensWithin P s) : OpensWithin P (forwardBoth r s) := by
  have hown : ∀ p, OpensWithin P (ownCopy r p s) := fun p => h.enqueue p true _
  unfold Machine.forwardBoth
  split
  · unfold furtherCopy
    split
    · exact (hown .n).line (.modPort _ _ (.refl _))
    · rename_i hv
      exact (hown .n).line ((LineOnly.takeGeneral hv (.refl _)).holdingTest.enqueue _ _ _)
  · exact hown .n
  · exact hown .s
  · exact h.freeBuffer _

theorem refuseCommand (r : Received) (a : Nat) (x : RefusalReason) (h : OpensWithin P s) :
    OpensWithin P (refuseCommand r a x s) := (h.freeBuffer _).records (.oweFull _ _)

/-! ### The ports (R140 to R145) -/

theorem startReception (p : Port) (o : Byte) (faulty : Bool) (h : OpensWithin P s) :
    OpensWithin P (startReception p o faulty s) := by
  unfold Machine.startReception
  split
  · rename_i hv
    exact h.line ((LineOnly.takeGeneral hv (.refl _)).modPort _ _).holdingTest
  · exact h.line (.modPort p _ (.refl s))

theorem takeOctet (p : Port) (o : Byte) (faulty : Bool) (h : OpensWithin P s) :
    OpensWithin P (takeOctet p o faulty s) := by
  unfold Machine.takeOctet
  split
  · exact h
  · exact h.line (.modPort p _ (.refl s))
  · exact h.line (.modPort p _ (.refl s))

theorem endFrame (p : Port) (h : OpensWithin P s) : OpensWithin P (endFrame p s) := by
  have hidle : OpensWithin P (idleReceiver p s) := h.line (.modPort p _ (.refl s))
  unfold Machine.endFrame
  split
  · exact h
  · dsimp only
    split
    · unfold goodTelegram
      dsimp only
      split
      · exact drain (hidle.of_directory rfl)
      · exact hidle.of_directory rfl
    · exact (hidle.line (.modPort p _ (.refl _))).freeBuffer _
  · exact hidle.line (.modPort p _ (.refl _))

/-! ### Day books and the clock (R101 to R104) -/

theorem flagClockSet (h : OpensWithin P s) : OpensWithin P (flagClockSet s) := h.of_directory rfl

theorem firstSetting (d n : Nat) (h : OpensWithin P s) : OpensWithin P (firstSetting d n s) := by
  unfold Machine.firstSetting
  extract_lets _ _ v
  have hopened : OpensWithin P v := h.of_directory rfl
  exact (hopened.accounts (.foldl AccountsOnly.addUnclocked meterNumbers v)).flagClockSet

theorem setClockNow (d n : Nat) (force : Bool) (h : OpensWithin P s) : OpensWithin P (setClockNow d n force s).2 := by
  unfold Machine.setClockNow
  split_ifs
  · exact h.firstSetting d n
  · exact h.kept (.setForced d n s)
  · unfold setUnforced
    extract_lets old new ahead behind
    split_ifs <;> exact h.of_directory rfl

theorem setClock (f : List Byte) (h : OpensWithin P s) : OpensWithin P (setClock f s).state := by
  unfold Machine.setClock
  extract_lets d n
  split
  · exact h
  · exact h.setClockNow d n _

theorem collect (h : OpensWithin P s) : OpensWithin P (collect s) := by
  have hcollected : OpensWithin P { s with
      previousBook := s.previousBook.map (fun b => { b with collected := true }) } := h.of_directory rfl
  exact hcollected.records (.clearAlarm _ _)

/-! ### Requests (R81, R84, R98, R106, R117, R130 to R132, R169 to R173) -/

theorem judge (checks : List (Bool × ResultCode)) {act : State → State} (h : OpensWithin P s)
    (ha : OpensWithin P (act s)) : OpensWithin P (judge checks act s).state := by
  unfold Machine.judge
  split
  · exact h
  · exact ha

theorem answerRequest (code : Nat) {perform : List Byte → State → Performed}
    (hp : ∀ {s : State} f, OpensWithin P s → OpensWithin P (perform f s).state) (h : OpensWithin P s) :
    OpensWithin P (answerRequest code perform s) := by
  unfold Machine.answerRequest
  split
  · exact h
  · rename_i hr
    exact ((hp _ (h.takeReceived hr)).enqueue _ _ _).drain

theorem loadSettings (f : List Byte) (h : OpensWithin P s) : OpensWithin P (loadSettings f s).state := by
  refine h.judge _ ?_
  split
  · exact h
  · rename_i x _
    have hstored : OpensWithin P { s with settings := x } := h.of_directory rfl
    exact hstored.line (.holdingTest (.refl _))

theorem mem_insertStation {e q : Station} {l : List Station} : q ∈ insertStation e l ↔ q = e ∨ q ∈ l := by
  rw [(insertStation_perm e l).mem_iff, List.mem_cons]

theorem find?_insertStation {e q : Station} {l : List Station} {a : Nat}
    (h : (insertStation e l).find? (fun x => x.address == a) = some q) :
    q = e ∨ l.find? (fun x => x.address == a) = some q := by
  induction l with
  | nil => exact .inl (by simpa [insertStation] using List.mem_of_find?_eq_some h)
  | cons x l ih =>
    unfold insertStation at h
    split at h
    · rw [List.find?_cons] at h
      split at h
      · exact .inl (Option.some.inj h).symm
      · exact .inr h
    · rw [List.find?_cons] at h ⊢
      split at h
      · exact .inr h
      · exact ih h

/-- R130, R131: a new entry has no orders, and one rewritten keeps its own. -/
theorem storeStation (x : StationFields) (h : OpensWithin P s) : OpensWithin P (storeStation x s) := by
  unfold Machine.storeStation
  split
  · exact h.subset _ (fun _ => rfl) fun _ => List.Subset.refl _
  · have hnone : (newStation x (s.stranger x.address)).orders = [] := rfl
    refine ⟨fun e he o ho => ?_, fun a e o v he ho => ?_⟩
    · obtain rfl | hold := mem_insertStation.mp he
      · simp [hnone] at ho
      · exact h.fromOffice e hold o ho
    · obtain rfl | hold := find?_insertStation he
      · simp [hnone] at ho
      · exact h.within a e o v hold ho

theorem find?_filter_ne {l : List Station} {a b : Nat} {q : Station}
    (h : (l.filter (fun e => e.address != a)).find? (fun e => e.address == b) = some q) :
    l.find? (fun e => e.address == b) = some q := by
  have hb : q.address = b := by simpa using List.find?_some h
  have ha : q.address ≠ a := by simpa using List.of_mem_filter (List.mem_of_find?_eq_some h)
  rw [List.find?_filter] at h
  rw [← h]
  congr 1
  funext e
  rw [Bool.eq_iff_iff]
  simp only [bne_iff_ne, beq_iff_eq, decide_eq_true_eq]
  refine ⟨fun he => ⟨?_, he⟩, fun he => he.2⟩
  rw [he, ← hb]
  exact ha

theorem removeStation (a : Nat) (h : OpensWithin P s) : OpensWithin P (removeStation a s) := by
  have hended := (h.clearOrders a).endSequence a
  have hstopped := (hended.subset a (f := fun e => { e with waitingTimer := .stopped }) (fun _ => rfl) fun _ =>
    List.Subset.refl _).records (.clearAlarm (alarmKey .stationSilent a) _)
  exact ⟨fun e he => hstopped.fromOffice e (List.mem_of_mem_filter he),
    fun b e o v he => hstopped.within b e o v (find?_filter_ne he)⟩

theorem storeDistrict (f : List Byte) (h : OpensWithin P s) : OpensWithin P (storeDistrict f s) := by
  have hput : ∀ d x, OpensWithin P (s.putDistrict d x) := fun d x => h.of_directory rfl
  unfold Machine.storeDistrict
  dsimp only
  split
  · unfold firstLoad
    dsimp only
    split
    · exact hput _ _
    · exact (hput _ _).records (.raiseAlarm _ _)
  · exact (hput _ _).recomputeDistrict _

theorem storeProfile (d : Nat) (l : List Breakpoint) (h : OpensWithin P s) : OpensWithin P (storeProfile d l s) := by
  unfold Machine.storeProfile
  split
  · exact h
  · exact h.of_directory rfl

theorem setFog (raise duration d : Nat) (h : OpensWithin P s) : OpensWithin P (setFog raise duration s d) := by
  unfold Machine.setFog
  split
  · exact h
  · exact h.of_directory rfl

theorem setMode (d : Nat) (m : Mode) (h : OpensWithin P s) : OpensWithin P (setMode d m s) := by
  unfold Machine.setMode
  split
  · exact h
  · exact h.of_directory rfl

/-- A pending list less some of its orders. -/
theorem filterList {a : Nat} {q : Station} (p : Order → Bool) (hq : s.station a = some q) (h : OpensWithin P s) :
    OpensWithin P (Machine.setList a (q.pendingList.filter p) s) :=
  h.setList fun _ ho _ => ⟨q, hq, mem_orders.mpr (.inr (List.mem_of_mem_filter ho))⟩

theorem dropAutomaticSets (a : Nat) (h : OpensWithin P s) : OpensWithin P (dropAutomaticSets a s) := by
  unfold Machine.dropAutomaticSets
  split
  · exact h
  · rename_i hq
    exact h.filterList _ hq

theorem supersedeOfficeOrders (a : Nat) (h : OpensWithin P s) : OpensWithin P (supersedeOfficeOrders a s) := by
  unfold Machine.supersedeOfficeOrders
  split
  · exact h
  · rename_i hq
    exact (h.filterList _ hq).records (.foldl (RecordsOnly.supersede .governor) _ _)

theorem changeMode (d : Nat) (m : Mode) (h : OpensWithin P s) : OpensWithin P (changeMode d m s) := by
  have hcleared := h.records (.clearAlarm (alarmKey .districtShort d) s)
  unfold Machine.changeMode
  split
  · exact h
  · split
    · exact h
    · refine records ?_ (.oweReference _ _)
      split
      · exact (hcleared.setMode d .released).issueRelease d
      · unfold enterManual
        split
        · exact (hcleared.dropAutomaticSets _).setMode d .manual
        · exact h.setMode d .manual
      · rename_i r _ _ _
        have hput : ∀ x, OpensWithin P ((Machine.supersedeOfficeOrders r.governor s).putDistrict d x) := fun x =>
          (h.supersedeOfficeOrders _).of_directory rfl
        exact ((hput _).setMode d .auto).stepBoundary d

theorem storeMeter (f : List Byte) (h : OpensWithin P s) : OpensWithin P (storeMeter f s) := by
  unfold Machine.storeMeter
  split
  · exact h
  · dsimp only
    split <;> exact h.of_directory rfl

theorem readRequest (f : List Byte) (h : OpensWithin P s) : OpensWithin P (readRequest f s).state := by
  unfold Machine.readRequest
  dsimp only
  split
  · exact h
  · split
    · exact h
    · split
      · exact h
      · exact h.of_directory rfl

theorem acknowledge (key : AlarmKey) (h : OpensWithin P s) : OpensWithin P (acknowledge key s) := by
  unfold Machine.acknowledge
  split
  · exact h
  · split
    · exact h.records ((RecordsOnly.dropAlarm _ _ s).trans (.settleAlarmOverflow _))
    · exact h.of_directory rfl

/-! ### Restarts (R174) -/

/-- R61: no order stands when a restart has begun. -/
theorem beginRestart (cause : RestartCause) (s : State) : OpensWithin P (beginRestart cause s) := by
  refine of_empty fun e he => ?_
  cases cause with
  | power => simp [Machine.beginRestart, beginAfresh, State.reset] at he
  | cold => simp [Machine.beginRestart, beginAfresh, State.reset] at he
  | warm =>
    obtain ⟨q, -, rfl⟩ := List.mem_map.mp he
    rfl

theorem completeRestart (h : OpensWithin P s) : OpensWithin P (completeRestart s) := by
  have hwaiting : OpensWithin P (startWaiting s) := by
    refine ⟨fun e he => ?_, fun a e o v he => ?_⟩
    · obtain ⟨q, hq, rfl⟩ := List.mem_map.mp he
      exact h.fromOffice q hq
    · rw [State.station, startWaiting, List.find?_map] at he
      obtain ⟨q, hq, rfl⟩ := Option.map_eq_some_iff.mp he
      exact h.within a q o v hq
  unfold Machine.completeRestart
  split
  · refine foldl (fun k h => ?_) _ ?_
    · unfold resumeClosure
      split
      · exact h
      · exact (h.handOver k).serve _
    · have hports : OpensWithin P (startWaiting (startPorts s)) := hwaiting.of_directory rfl
      exact (hports.kept (startLocal_kept _)).of_directory rfl
  · exact h

end OpensWithin

end Sys2Proof.Opens
end

section
/-! SUPPORT. R50 as the bound that the Holder Records set to the OPENs of the directory, the withdrawals of R52 and R53,
and that what the Stock Reckoning Unit writes to a holder leaves no OPEN that the holder's new state forbids. -/

namespace Sys2Proof.Opens

open Sys2Proof Sys2Proof.Machine Sys2Proof.Laws Sys2Proof.Directory

variable {P : Nat → Nat → Prop} {s t u : State}

/-! ### The bound of the Holder Records (R50) -/

/-- R50: whether a holder's state forbids an OPEN of a valve. -/
def forbids (r : Holder) (v : Nat) : Bool := if v = 0 then r.forbidsInlet else r.forbidsOutlets

theorem forbids_eq_false_iff {r : Holder} {v : Nat} :
    forbids r v = false ↔ r.inReckoning = true ∧ r.blind = false ∧ (v = 0 → r.condition ≠ .top) ∧
      (v ≠ 0 → r.condition ≠ .low ∧ r.condition ≠ .landed) := by
  unfold forbids Holder.forbidsInlet Holder.forbidsOutlets
  by_cases hv : v = 0 <;> simp [hv, and_assoc]

/-- A holder that is OUT forbids every OPEN, so no state of it forbids more. -/
theorem eased_of_out {r : Holder} (hout : r.inReckoning = false) (x : Holder) :
    ∀ v ≤ 6, forbids r v = false → forbids x v = false := by
  intro v _ hv
  obtain ⟨hin, -⟩ := forbids_eq_false_iff.mp hv
  simp [hout] at hin

/-- R50: the OPENs that no holder of the station forbids. -/
def Permits (s : State) (a v : Nat) : Prop := ∀ h r, s.holder h = some r → r.valveStation = a → forbids r v = false

/-- R41: no two loaded holders share a valve station. -/
def StationsDistinct (s : State) : Prop :=
  ∀ h k r q, s.holder h = some r → s.holder k = some q → r.valveStation = q.valveStation → h = k

theorem opensAllowed_iff : OpensAllowed s ↔ StationsDistinct s ∧ OpensWithin (Permits s) s := by
  constructor
  · rintro ⟨hauto, hdistinct, hopen⟩
    refine ⟨hdistinct, hauto, fun a e o v he ho hv h r hr hstation => ?_⟩
    exact hopen h r e o v hr (hstation ▸ he) ho hv
  · rintro ⟨hdistinct, hauto, hopen⟩
    exact ⟨hauto, hdistinct, fun h r e o v hr he ho hv => hopen r.valveStation e o v he ho hv h r hr rfl⟩

/-- What writes no Holder Record and places no OPEN. -/
structure Quiet (s t : State) : Prop where
  holders : t.holders = s.holders
  within : ∀ P, OpensWithin P s → OpensWithin P t

namespace Quiet

theorem refl (s : State) : Quiet s s := ⟨rfl, fun _ h => h⟩

theorem trans (h : Quiet s t) (k : Quiet t u) : Quiet s u :=
  ⟨k.holders.trans h.holders, fun P o => k.within P (h.within P o)⟩

theorem holder (h : Quiet s t) (k : Nat) : t.holder k = s.holder k := congrArg (recordGet · k) h.holders

theorem of_eq (hholders : t.holders = s.holders) (hdirectory : t.directory = s.directory) : Quiet s t :=
  ⟨hholders, fun _ h => h.of_directory hdirectory⟩

theorem records (h : RecordsOnly s t) : Quiet s t := ⟨(SupplyOnly.records h).holders, fun _ o => o.records h⟩

theorem accounts (h : AccountsOnly s t) : Quiet s t := ⟨h.holders, fun _ o => o.accounts h⟩

theorem recomputeSupply (s : State) : Quiet s (recomputeSupply s) :=
  ⟨(SupplyOnly.recomputeSupply s).holders, fun _ o => o.recomputeSupply⟩

theorem handStockPartial (s : State) : Quiet s (handStockPartial s) := .of_eq rfl rfl

theorem formYardStock (s : State) : Quiet s (formYardStock s) := .of_eq rfl rfl

theorem putRouting (k : Nat) (x : Routing) (s : State) : Quiet s (s.putRouting k x) := .of_eq rfl rfl

theorem writeOutletSet (k : Nat) (set : DistrictSet) (s : State) : Quiet s (writeOutletSet k set s) :=
  ⟨writeOutletSet_holders k set s, fun _ o => o.kept (.writeOutletSet k set s)⟩

theorem handOutletSet (k : Nat) (set : DistrictSet) (s : State) : Quiet s (handOutletSet k set s) :=
  ⟨handOutletSet_holders k set s, fun _ o => o.handOutletSet k set⟩

/-- What writes other pieces than the Holder Records. -/
theorem of_writes {F : List Frames.Piece} (h : Frames.Writes F s t) (hF : .holders ∉ F)
    (ho : ∀ P, OpensWithin P s → OpensWithin P t) : Quiet s t := ⟨h .holders hF, ho⟩

theorem allowed (h : Quiet s t) (k : OpensAllowed s) : OpensAllowed t := by
  obtain ⟨hdistinct, hopen⟩ := opensAllowed_iff.mp k
  refine opensAllowed_iff.mpr ⟨?_, ?_⟩
  · simpa only [StationsDistinct, h.holder] using hdistinct
  · have hpermits : Permits t = Permits s := by
      funext a v
      simp only [Permits, h.holder]
    exact hpermits ▸ h.within _ hopen

end Quiet

theorem allowed_foldl {α : Type} {f : State → α → State} (hf : ∀ {s : State} x, OpensAllowed s → OpensAllowed (f s x))
    (l : List α) (h : OpensAllowed s) : OpensAllowed (l.foldl f s) := by
  induction l generalizing s with
  | nil => exact h
  | cons x l ih => exact ih (hf x h)

/-! ### Withdrawals (R51 to R53) -/

/-- With no order of a station that opens one of some valves, the bound of its OPENs is less by those valves. -/
theorem OpensWithin.withdrawn {a : Nat} {W : List Nat}
    (hn : ∀ e o, s.station a = some e → o ∈ e.orders → o.opensOneOf W = false) (h : OpensWithin P s) :
    OpensWithin (fun b v => P b v ∧ (b = a → v ∉ W)) s where
  fromOffice := h.fromOffice
  within := by
    refine fun b e o v he ho hv => ⟨h.within b e o v he ho hv, ?_⟩
    rintro rfl hW
    have hoffice : o.fromOffice = true := by
      by_contra hauto
      exact h.fromOffice e (List.mem_of_find?_eq_some he) o ho (by simpa using hauto) (valveOrder_some hv).1
    have hopens : o.opensOneOf W = true := by simp [Order.opensOneOf, hoffice, hv, hW]
    exact absurd hopens (by simp [hn e o he ho])

theorem OpensWithin.abandonOpen (a : Nat) (cause : SupersessionCause) (h : OpensWithin P s) :
    OpensWithin P (abandonOpen a cause s).2 := by
  unfold Machine.abandonOpen
  split
  · exact h
  · split
    · exact (h.emptySlot a).records (.oweFull _ _)
    · exact h

/-- R52: after it the slot holds no OPEN of a named valve. -/
theorem abandonOpen_slot {a : Nat} {cause : SupersessionCause} {e : Station} {o : Order}
    (he : (abandonOpen a cause s).2.station a = some e) (ho : e.slot.order? = some o) :
    o.opensOneOf (withdrawnValves cause) = false := by
  unfold abandonOpen at he
  split at he
  · rename_i hslot
    rw [he, Option.bind_some, ho] at hslot
    cases hslot
  · rename_i x hslot
    obtain ⟨q, hq, hqx⟩ := Option.bind_eq_some_iff.mp hslot
    split at he
    · have hemptied : (emptySlot a s).station a = some { q with slot := .empty } :=
        modStation_station_self (f := fun st => { st with slot := .empty }) (fun _ => rfl) hq
      cases hemptied.symm.trans (((RecordsOnly.oweFull _ _).station a).symm.trans he)
      cases ho
    · rename_i hopens
      obtain rfl : q = e := Option.some.inj (hq.symm.trans he)
      obtain rfl : x = o := Option.some.inj (hqx.symm.trans ho)
      simpa using hopens

/-- R52, R53: after them a cause's OPENs stand in the station's slot and list no more. -/
theorem OpensWithin.withdrawOpens (a : Nat) (cause : SupersessionCause) (h : OpensWithin P s) :
    OpensWithin (fun b v => P b v ∧ (b = a → v ∉ withdrawnValves cause)) (withdrawOpens a cause s).2 := by
  have habandoned := h.abandonOpen a cause
  unfold Machine.withdrawOpens removeOpens
  dsimp only
  split
  · rename_i hnone
    exact habandoned.withdrawn fun e o he _ => absurd (hnone.symm.trans he) nofun
  · rename_i q hq
    refine records ?_ (.foldl (fun s o => .oweFull _ s) _ _)
    refine (habandoned.filterList _ hq).withdrawn fun e o he ho => ?_
    have hfiltered := fun l => modStation_station_self (f := fun st => { st with pendingList := l }) (fun _ => rfl) hq
    obtain rfl := Option.some.inj ((hfiltered _).symm.trans he)
    obtain hslot | hlist := mem_orders.mp ho
    · exact abandonOpen_slot hq hslot
    · simpa using List.of_mem_filter hlist

/-- R51: a cause at a holder withdraws its OPENs and places no other. -/
theorem OpensWithin.interlockCause {k : Nat} {r : Holder} (cause : SupersessionCause) (hr : s.holder k = some r)
    (h : OpensWithin P s) :
    OpensWithin (fun a v => P a v ∧ (a = r.valveStation → v ∉ withdrawnValves cause)) (interlockCause k cause s) := by
  have hadded := (h.withdrawOpens r.valveStation cause).addClosures k cause
    (Machine.withdrawOpens r.valveStation cause s).1
  unfold Machine.interlockCause
  rw [hr]
  refine serve _ ?_
  split
  · exact hadded
  · exact hadded.handOver k

/-- R42, R59. -/
theorem OpensWithin.withdrawFromNewStation (a : Nat) (h : OpensWithin P s) :
    OpensWithin (fun b v => P b v ∧ (b = a → v ∉ withdrawnValves .out)) (withdrawFromNewStation a s) :=
  (h.withdrawOpens a .out).serve a

/-! ### Holder Records written -/

/-- A Holder Record written for a station that is no other holder's, with the OPENs of some valves withdrawn there: R50
holds if the new state forbids no OPEN that may still stand. -/
theorem allowed_of_withdrawn {k : Nat} {x : Holder} {W : List Nat}
    (hdistinct : ∀ h q, h ≠ k → s.holder h = some q → q.valveStation ≠ x.valveStation)
    (hforbids : ∀ v ≤ 6, v ∉ W → Permits s x.valveStation v → forbids x v = false)
    (hholders : t.holders = (s.putHolder k x).holders)
    (hw : OpensWithin (fun a v => Permits s a v ∧ (a = x.valveStation → v ∉ W)) t) (h : OpensAllowed s) :
    OpensAllowed t := by
  have hread : ∀ j q, t.holder j = some q → j = k ∧ q = x ∨ j ≠ k ∧ s.holder j = some q := by
    intro j q hq
    have hput := putHolder_holder s k j x
    rw [show (s.putHolder k x).holder j = t.holder j from congrArg (recordGet · j) hholders.symm, hq] at hput
    have hrange := Points.recordGet_some_le hq
    split at hput
    · rename_i hj
      exact .inl ⟨hj.1.symm, Option.some.inj hput⟩
    · rename_i hj
      exact .inr ⟨fun hjk => hj (by omega), hput.symm⟩
  obtain ⟨hdistinct', -⟩ := opensAllowed_iff.mp h
  refine opensAllowed_iff.mpr ⟨fun i j r q hr hq hstation => ?_, hw.mono fun a v hv ⟨hpermits, hW⟩ j q hq ha => ?_⟩
  · obtain ⟨hi, rfl⟩ | ⟨hi, hr⟩ := hread i r hr
    · obtain ⟨hj, rfl⟩ | ⟨hj, hq⟩ := hread j q hq
      · exact hi.trans hj.symm
      · exact absurd hstation.symm (hdistinct j q hj hq)
    · obtain ⟨hj, rfl⟩ | ⟨hj, hq⟩ := hread j q hq
      · exact absurd hstation (hdistinct i r hi hr)
      · exact hdistinct' i j r q hr hq hstation
  · obtain ⟨-, rfl⟩ | ⟨-, hq⟩ := hread j q hq
    · exact hforbids v hv (hW ha.symm) (ha ▸ hpermits)
    · exact hpermits j q hq ha

/-- The other holders have other valve stations than the one whose record is written. -/
theorem distinct_of_holder {k : Nat} {r x : Holder} (hr : s.holder k = some r)
    (hstation : x.valveStation = r.valveStation) (h : OpensAllowed s) :
    ∀ j q, j ≠ k → s.holder j = some q → q.valveStation ≠ x.valveStation := fun j q hj hq hsame =>
  hj (h.stationsDistinct j k q r hq hr (hsame.trans hstation))

/-- R51: a Holder Record written, and a cause that withdraws the OPENs that its new state forbids. -/
theorem allowed_cause {k : Nat} {r x : Holder} {cause : SupersessionCause} (hr : s.holder k = some r)
    (hq : Quiet (s.putHolder k x) t) (hstation : x.valveStation = r.valveStation)
    (hforbids : ∀ v ≤ 6, v ∉ withdrawnValves cause → forbids r v = false → forbids x v = false)
    (h : OpensAllowed s) : OpensAllowed (interlockCause k cause t) := by
  have hx : t.holder k = some x := (hq.holder k).trans (putHolder_self x hr)
  refine allowed_of_withdrawn (W := withdrawnValves cause) (distinct_of_holder hr hstation h)
    (fun v hv hW hpermits => ?_) ((interlockCause_holders _ _ _).trans hq.holders) (.interlockCause cause hx ?_) h
  · exact hforbids v hv hW (hpermits k r hr hstation.symm)
  · exact hq.within _ ((opensAllowed_iff.mp h).2.of_directory rfl)

/-- A Holder Record written that forbids no more than before, at the same station. -/
theorem allowed_eased {k : Nat} {r x : Holder} (hr : s.holder k = some r) (hq : Quiet (s.putHolder k x) t)
    (hstation : x.valveStation = r.valveStation) (hforbids : ∀ v ≤ 6, forbids r v = false → forbids x v = false)
    (h : OpensAllowed s) : OpensAllowed t := by
  refine allowed_of_withdrawn (W := []) (distinct_of_holder hr hstation h) (fun v hv _ hpermits => ?_) hq.holders ?_ h
  · exact hforbids v hv (hpermits k r hr hstation.symm)
  · refine hq.within _ (.mono (fun a v _ ha => ⟨ha, fun _ => List.not_mem_nil⟩) ?_)
    exact (opensAllowed_iff.mp h).2.of_directory rfl

/-! ### Conditions and blindness (R34 to R37) -/

theorem raiseCondition_records (k : Nat) (c : Condition) (s : State) : RecordsOnly s (raiseCondition k c s) := by
  unfold raiseCondition
  split
  · exact .refl s
  · exact .raiseAlarm _ s

theorem clearCondition_records (k : Nat) (c : Condition) (s : State) : RecordsOnly s (clearCondition k c s) := by
  unfold clearCondition
  split
  · exact .refl s
  · exact .clearAlarm _ s

theorem overTopChange_records (k : Nat) (b c : Bool) (s : State) : RecordsOnly s (overTopChange k b c s) := by
  unfold overTopChange
  split_ifs
  · exact .refl s
  · exact .raiseAlarm _ s
  · exact .clearAlarm _ s

/-- R51: a condition's cause withdraws the OPENs that the condition forbids. -/
theorem forbids_condition (r : Holder) (c : Condition) {v : Nat}
    (hW : ∀ cause, conditionCause c = some cause → v ∉ withdrawnValves cause) (hle : v ≤ 6) (h : forbids r v = false) :
    forbids { r with condition := c } v = false := by
  obtain ⟨hin, hblind, -⟩ := forbids_eq_false_iff.mp h
  have houtlet : v ≠ 0 → v ∈ [1, 2, 3, 4, 5, 6] := by
    simp only [List.mem_cons, List.not_mem_nil]
    omega
  refine forbids_eq_false_iff.mpr ⟨hin, hblind, ?_, fun hv => ⟨?_, ?_⟩⟩
  · rintro rfl rfl
    exact hW .top rfl (.head _)
  · rintro rfl
    exact hW .low rfl (houtlet hv)
  · rintro rfl
    exact hW .landed rfl (houtlet hv)

theorem allowed_recompute {b : Prop} [Decidable b] (h : OpensAllowed s) :
    OpensAllowed (if b then recomputeSupply s else s) := by
  split
  · exact (Quiet.recomputeSupply s).allowed h
  · exact h

theorem allowed_conditionChange (k : Nat) (c : Condition) (h : OpensAllowed s) :
    OpensAllowed (conditionChange k c s) := by
  unfold conditionChange
  split
  · exact h
  · rename_i r hr
    have halarms := (clearCondition_records k r.condition s).trans (raiseCondition_records k c _)
    have hr' := (halarms.holder k).trans hr
    have h' := (Quiet.records halarms).allowed h
    refine allowed_recompute ?_
    split
    · rename_i hnone
      refine allowed_eased hr' (.records (.oweReference _ _)) rfl (fun v hle hv => ?_) h'
      exact forbids_condition r c (fun x hx => absurd (hnone.symm.trans hx) nofun) hle hv
    · rename_i cause hcause
      refine allowed_cause hr' (.records (.oweReference _ _)) rfl (fun v hle hW hv => ?_) h'
      exact forbids_condition r c (fun x hx => Option.some.inj (hcause.symm.trans hx) ▸ hW) hle hv

/-- BLIND and OUT withdraw the OPENs of every valve. -/
theorem mem_withdrawnValves_blind {v : Nat} (h : v ≤ 6) : v ∈ withdrawnValves .blind := by
  simp only [withdrawnValves, List.mem_cons, List.not_mem_nil]
  omega

theorem mem_withdrawnValves_out {v : Nat} (h : v ≤ 6) : v ∈ withdrawnValves .out := mem_withdrawnValves_blind h

theorem allowed_becomeBlind (k : Nat) (h : OpensAllowed s) : OpensAllowed (becomeBlind k s) := by
  unfold becomeBlind
  split
  · exact h
  · rename_i r hr
    split
    · exact h
    · refine (Quiet.handStockPartial _).allowed (allowed_cause hr
        (.records ((RecordsOnly.raiseAlarm _ _).trans (.oweReference _ _))) rfl (fun v hle hW _ => ?_) h)
      exact absurd (mem_withdrawnValves_blind hle) hW

/-- R37: the end of blindness forbids nothing more. -/
theorem allowed_endBlindness (k : Nat) (h : OpensAllowed s) : OpensAllowed (endBlindness k s) := by
  unfold endBlindness
  split
  · exact h
  · rename_i r hr
    refine allowed_eased hr (.records ((RecordsOnly.clearAlarm _ _).trans (.oweReference _ _))) rfl (fun v _ hv => ?_) h
    obtain ⟨hin, -, hcondition⟩ := forbids_eq_false_iff.mp hv
    exact forbids_eq_false_iff.mpr ⟨hin, rfl, hcondition⟩

/-! ### Reckonings and updates (R23 to R31) -/

theorem allowed_reckon (k : Nat) (g : Int) (h : OpensAllowed s) : OpensAllowed (reckon k g s) := by
  unfold reckon
  split
  · exact h
  · rename_i r hr
    have hstored : OpensAllowed (formYardStock (s.putHolder k (reckoned r g s))) :=
      allowed_eased hr (.formYardStock _) rfl (fun _ _ hv => hv) h
    have htop := (Quiet.records (overTopChange_records k r.overTop (reckoned r g s).overTop _)).allowed hstored
    extract_lets q v1 v2 v3 after v4
    have hsight : OpensAllowed v3 := by
      unfold v3
      split
      · exact allowed_endBlindness k htop
      · exact htop
    have hjudged : OpensAllowed v4 := by
      unfold v4
      split
      · exact hsight
      · exact allowed_conditionChange k after hsight
    split
    · exact hjudged
    · exact (Quiet.recomputeSupply _).allowed hjudged

theorem allowed_gaugeUpdate (v : PointUpdate) (k : Nat) (h : OpensAllowed s) : OpensAllowed (gaugeUpdate v k s) := by
  unfold gaugeUpdate
  split
  · exact allowed_reckon k _ h
  · exact allowed_becomeBlind k h
  · exact allowed_becomeBlind k h
  · exact allowed_becomeBlind k h
  · exact h

theorem allowed_pressureUpdate (k : Nat) (h : OpensAllowed s) : OpensAllowed (pressureUpdate k s) := by
  unfold pressureUpdate
  split
  · exact h
  · rename_i r hr
    dsimp only
    split
    · exact h
    · exact allowed_eased hr (.recomputeSupply _) rfl (fun _ _ hv => hv) h

theorem allowed_holderUpdate (v : PointUpdate) (k : Nat) (h : OpensAllowed s) : OpensAllowed (holderUpdate v s k) := by
  unfold holderUpdate
  split
  · exact h
  · split
    · rename_i r _ _
      have hgauge : OpensAllowed (if r.gaugePoint = v.number then gaugeUpdate v k s else s) := by
        split
        · exact allowed_gaugeUpdate v k h
        · exact h
      dsimp only
      split
      · exact allowed_pressureUpdate k hgauge
      · exact hgauge
    · exact h

theorem allowed_handUpdate (v : PointUpdate) (h : OpensAllowed s) : OpensAllowed (handUpdate v s) :=
  (Quiet.accounts (.updates v _)).allowed (allowed_foldl (fun k h => allowed_holderUpdate v k h) holderNumbers h)

/-! ### Service (R39, R40) and the requests about holders (R41, R42, R59) -/

theorem allowed_bringIn {k : Nat} {r : Holder} (hr : s.holder k = some r) (hout : r.inReckoning = false)
    (h : OpensAllowed s) : OpensAllowed (bringIn k s) := by
  have hentered : ∀ x : Holder, x.valveStation = r.valveStation → OpensAllowed
      (handStockPartial (recomputeSupply (oweHolderState k (formYardStock (s.putHolder k x))))) := fun x hstation =>
    allowed_eased hr (.trans (.formYardStock _) (.trans (.records (.oweReference _ _))
      (.trans (.recomputeSupply _) (.handStockPartial _)))) hstation
      (eased_of_out hout x) h
  unfold bringIn
  rw [hr]
  dsimp only
  split
  · exact hentered _ rfl
  · exact allowed_reckon k _ (hentered _ rfl)

theorem allowed_takeOut (k : Nat) (h : OpensAllowed s) : OpensAllowed (takeOut k s) := by
  unfold takeOut
  split
  · exact h
  · rename_i r hr
    have halarms := ((clearCondition_records k r.condition s).trans (.clearAlarm (alarmKey .overTop k) _)).trans
      (.clearAlarm (alarmKey .holderBlind k) _)
    have hr' := (halarms.holder k).trans hr
    refine Quiet.allowed (.trans (.recomputeSupply _) (.handStockPartial _)) (allowed_cause hr'
      (.trans (.formYardStock _) (.records (.oweReference _ _))) rfl (fun v hle hW _ => ?_)
      ((Quiet.records halarms).allowed h))
    exact absurd (mem_withdrawnValves_out hle) hW

theorem allowed_setService (k : Nat) (enter : Bool) (h : OpensAllowed s) : OpensAllowed (setService k enter s) := by
  unfold setService
  split
  · exact h
  · rename_i r hr
    split
    · exact h
    · split
      · rename_i hchange henter
        exact allowed_bringIn hr (by simpa [henter] using hchange) h
      · exact allowed_takeOut k h

theorem allowed_storeLift {k : Nat} (n : Nat) (l : Lift) (hout : (s.holder k).any (·.inReckoning) = false)
    (h : OpensAllowed s) : OpensAllowed (storeLift k n l s) := by
  unfold storeLift
  split
  · exact h
  · rename_i r hr
    rw [hr] at hout
    exact allowed_eased hr (.formYardStock _) rfl (eased_of_out hout _) h

/-- R42, R59: a Holder Record written for a station that is no other holder's, and the OUT withdrawal there. -/
theorem allowed_newStation {k a : Nat} {x : Holder} (hx : x.valveStation = a)
    (hdistinct : ∀ h q, h ≠ k → s.holder h = some q → q.valveStation ≠ a) (hq : Quiet (s.putHolder k x) t)
    (h : OpensAllowed s) : OpensAllowed (withdrawFromNewStation a t) := by
  subst hx
  refine allowed_of_withdrawn hdistinct (fun v hle hW _ => absurd (mem_withdrawnValves_out hle) hW)
    ((SupplyOnly.withdrawFromNewStation _ t).holders.trans hq.holders) (.withdrawFromNewStation _ ?_) h
  exact hq.within _ ((opensAllowed_iff.mp h).2.of_directory rfl)

theorem allowed_storeHolder {f : List Byte}
    (hdistinct : ∀ k q, k ≠ octetAt f 0 → s.holder k = some q → q.valveStation ≠ octetAt f 1)
    (hout : (s.holder (octetAt f 0)).any (·.inReckoning) = false) (h : OpensAllowed s) :
    OpensAllowed (storeHolder f s) := by
  unfold storeHolder
  extract_lets k a
  split
  · rename_i r q hr _
    rw [hr] at hout
    extract_lets v
    have hstored : Quiet (s.putHolder k (loadedHolder f r.lifts)) v := .formYardStock _
    split
    · rename_i hsame
      exact allowed_eased hr hstored hsame.symm (eased_of_out hout _) h
    · have hcleared : Quiet v (clearCloseFailures k (v.putRouting k Routing.fresh)) :=
        .trans (.putRouting k _ v) (.records (.foldl (fun s _ => .clearAlarm _ s) [0, 1, 2, 3, 4, 5, 6] _))
      refine allowed_newStation rfl hdistinct (hstored.trans ?_) h
      split
      · exact hcleared
      · exact hcleared.trans (.handOutletSet k _ _)
  · exact allowed_newStation rfl hdistinct
      (.trans (.formYardStock _) (.trans (.putRouting k _ _) (.writeOutletSet k _ _))) h

end Sys2Proof.Opens
end

section
/-! SUPPORT. R50 over the updates of points, over the placement of an office order that has passed the checks of R47 and
R48, over restarts, and over every command. -/

namespace Sys2Proof.Opens

open Sys2Proof Sys2Proof.Machine Sys2Proof.Laws Sys2Proof.Directory

variable {P : Nat → Nat → Prop} {s t : State}

/-! ### Updates of points (R3, R7, R8, R16 to R19) -/

theorem Quiet.putPoint (n : Nat) (x : Option Point) (s : State) : Quiet s (s.putPoint n x) := .of_eq rfl rfl

theorem Quiet.writeConverter (c : LocalConverter) (s : State) : Quiet s { s with localConverter := c } :=
  .of_eq rfl rfl

theorem Quiet.line (h : LineOnly s t) : Quiet s t :=
  .of_writes ((Frames.Writes.refl (F := []) s).line h) List.not_mem_nil fun _ o => o.line h

theorem allowed_pointUpdated (n : Nat) (x : Option Point) (v : PointUpdate) (h : OpensAllowed s) :
    OpensAllowed (handUpdate v (s.putPoint n x)) := allowed_handUpdate v ((Quiet.putPoint n x s).allowed h)

theorem allowed_convertSample (a : Nat) (body : List Byte) (h : OpensAllowed s) :
    OpensAllowed (convertSample a body s) := by
  unfold convertSample
  split
  · refine allowed_foldl (fun e h => ?_) _ h
    unfold takeEntry
    split
    · exact h
    · split
      · exact h
      · exact allowed_pointUpdated _ _ _ h
  · exact h

theorem allowed_stalePoints (a : Nat) (h : OpensAllowed s) : OpensAllowed (stalePoints a s) := by
  refine allowed_foldl (fun n h => ?_) _ h
  unfold stalePoint
  split
  · exact h
  · split
    · exact allowed_pointUpdated _ _ _ h
    · exact h

theorem allowed_goSilent (a : Nat) (h : OpensAllowed s) : OpensAllowed (goSilent a s) := by
  have hmarked : Quiet s (s.modStation a (fun e => { e with waitingTimer := .stopped, liveness := .silent })) :=
    ⟨rfl, fun _ o => o.subset a (fun _ => rfl) fun _ => List.Subset.refl _⟩
  exact allowed_stalePoints a ((hmarked.trans (.records (.raiseAlarm _ _))).allowed h)

/-- R16, R17: a point record written or emptied, and the former point handed on as NONE. -/
theorem allowed_pointReplaced (n : Nat) (x former : Option Point) (h : OpensAllowed s) :
    OpensAllowed (handNone n former (s.putPoint n x)) := by
  unfold handNone
  split
  · exact (Quiet.putPoint n x s).allowed h
  · exact allowed_pointUpdated n x _ h

theorem allowed_storePoint (f : List Byte) (h : OpensAllowed s) : OpensAllowed (storePoint f s) := by
  unfold storePoint
  split
  · exact allowed_pointReplaced _ _ _ h
  · exact h

theorem allowed_setLocal (enable : Bool) (resolution period : Nat) (h : OpensAllowed s) :
    OpensAllowed (setLocal enable resolution period s) := by
  have hset : ∀ c, OpensAllowed { s with localConverter := c } := fun c =>
    (Quiet.writeConverter c s).allowed h
  unfold setLocal
  dsimp only
  split
  · exact hset _
  · split
    · exact hset _
    · exact allowed_stalePoints _ (hset _)

theorem allowed_finishScan (codes : List Nat) (h : OpensAllowed s) : OpensAllowed (finishScan codes s) := by
  have hscanned : OpensAllowed { s with localConverter := { s.localConverter with scanning := false } } :=
    (Quiet.writeConverter _ s).allowed h
  have hconverted := allowed_convertSample ownAddress (bodyOf (localSample s.localConverter codes)) hscanned
  unfold finishScan
  dsimp only
  split
  · exact hconverted
  · unfold queueLocal
    split
    · exact hconverted
    · rename_i hv
      exact (Quiet.line ((LineOnly.takeGeneral hv (.refl _)).holdingTest.enqueue _ _ _)).allowed hconverted

/-! ### Telegrams passed on -/

theorem Quiet.drain (s : State) : Quiet s (drain s) :=
  .of_writes (Frames.Writes.refl (F := []) s).drain List.not_mem_nil fun _ o => o.drain

theorem Quiet.freeBuffer (b : Buffer) (s : State) : Quiet s (freeBuffer b s) :=
  .of_writes ((Frames.Writes.refl (F := []) s).freeBuffer b) List.not_mem_nil fun _ o => o.freeBuffer b

theorem Quiet.forwardBoth (r : Received) (s : State) : Quiet s (forwardBoth r s) :=
  .of_writes ((Frames.Writes.refl (F := []) s).forwardBoth r) List.not_mem_nil fun _ o => o.forwardBoth r

theorem Quiet.refuseCommand (r : Received) (a : Nat) (x : RefusalReason) (s : State) :
    Quiet s (refuseCommand r a x s) :=
  .of_writes ((Frames.Writes.refl (F := []) s).refuseCommand r a x) List.not_mem_nil fun _ o => o.refuseCommand r a x

theorem allowed_passSample (r : Received) (b : Branch) (h : OpensAllowed s) : OpensAllowed (passSample r b s) := by
  have hheard : Quiet s (hear (sourceOf r.octets) b s) :=
    .of_writes ((Frames.Writes.refl (F := [.strangers]) s).hear (.head _) _ b) (by simp) fun _ o => o.hear _ b
  have hforwarded : ∀ v x, Quiet v (forwardField r b false x v) := fun v x =>
    .of_writes ((Frames.Writes.refl (F := []) v).forwardField r b false x) List.not_mem_nil fun _ o =>
      o.forwardField r b false x
  exact (hforwarded _ _).allowed (allowed_convertSample _ _ (hheard.allowed h))

/-! ### Office orders placed (R47, R48, R63) -/

/-- R48: an OPEN that is not refused is not forbidden. -/
theorem forbids_of_openRefusal {r : Holder} {v : Nat} (h : openRefusal r v = none) : forbids r v = false := by
  unfold openRefusal at h
  rw [forbids_eq_false_iff]
  split_ifs at h <;> simp_all

theorem holderOfStation_of_distinct {k a : Nat} {r : Holder} (hdistinct : StationsDistinct s)
    (hr : s.holder k = some r) (ha : r.valveStation = a) : s.holderOfStation a = some k := by
  obtain ⟨j, hj⟩ := Option.isSome_iff_exists.mp ((Districts.holderOfStation_isSome_iff a s).mpr ⟨k, r, hr, ha⟩)
  have hnamed := List.find?_some hj
  obtain ⟨q, hq, hqa⟩ := (Option.any_eq_true _ _).mp hnamed
  rw [hj, hdistinct j k q r hq hr ((beq_iff_eq.mp hqa).trans ha.symm)]

/-- R47, R48: a COMMAND that passes its checks opens no valve that a holder of its station forbids. -/
theorem permits_of_commandRefusal {a v : Nat} {body : List Byte} {o : Order} (hdistinct : StationsDistinct s)
    (hn : commandRefusal a body s = none) (hbody : o.body = body) (hv : o.valveOrder codeOpen = some v) :
    Permits s a v := by
  intro k r hr ha
  obtain ⟨hcheck, -⟩ := Option.or_eq_none_iff.mp hn
  rw [holderOfStation_of_distinct hdistinct hr ha, Option.bind_some, hr, Option.bind_some] at hcheck
  subst hbody
  unfold Order.valveOrder at hv
  split at hv
  · rename_i hopen
    obtain ⟨hoperand, hle⟩ := Option.filter_eq_some_iff.mp hv
    unfold valveCheck at hcheck
    rw [if_pos (show o.body.length = 3 ∧ orderCode o.body = some codeOpen from hopen),
      show operandOf o.body = some v from hoperand] at hcheck
    exact forbids_of_openRefusal ((if_pos (by simpa using hle)).symm.trans hcheck)
  · cases hv

/-- R63: an office order that joins a list. -/
theorem OpensWithin.append {a : Nat} {o : Order} (hoffice : o.fromOffice = true)
    (ho : ∀ v, o.valveOrder codeOpen = some v → P a v) (h : OpensWithin P s) :
    OpensWithin P (s.modStation a (fun e => { e with pendingList := e.pendingList ++ [o] })) := by
  have hjoined : ∀ (e : Station) x, x ∈ { e with pendingList := e.pendingList ++ [o] }.orders →
      x = o ∨ x ∈ e.orders := by
    intro e x hx
    simp only [mem_orders, List.mem_append, List.mem_singleton] at hx ⊢
    tauto
  refine ⟨fun e' he' x hx hauto => ?_, fun k e' x v hk hx hv => ?_⟩
  · obtain ⟨e, he, rfl⟩ := List.mem_map.mp he'
    split at hx
    · obtain rfl | hold := hjoined e x hx
      · simp [hoffice] at hauto
      · exact h.fromOffice e he x hold hauto
    · exact h.fromOffice e he x hx hauto
  · rw [modStation_station s a k (fun e => { e with pendingList := e.pendingList ++ [o] }) fun _ => rfl] at hk
    obtain ⟨e, he, rfl⟩ := Option.map_eq_some_iff.mp hk
    split at hx
    · rename_i hea
      obtain rfl : k = a := (station_address he).symm.trans (beq_iff_eq.mp hea)
      obtain rfl | hold := hjoined e x hx
      · exact ho v hv
      · exact h.within k e x v he hold hv
    · exact h.within k e x v he hx hv

theorem allowed_placeOffice {a : Nat} {body : List Byte} (hn : commandRefusal a body s = none) (h : OpensAllowed s) :
    OpensAllowed (placeOffice a body s) := by
  obtain ⟨hdistinct, hopen⟩ := opensAllowed_iff.mp h
  have hserial : OpensWithin (Permits s) (nextSerial s) := hopen.of_directory rfl
  refine opensAllowed_iff.mpr ⟨hdistinct, ?_⟩
  exact (hserial.append rfl fun v hv => permits_of_commandRefusal hdistinct hn rfl hv).serve a

theorem allowed_dispatchCommand {a : Nat} (r : Received) (hn : commandRefusal a (bodyOf r.octets) s = none)
    (h : OpensAllowed s) : OpensAllowed (dispatchCommand r a s) := by
  unfold dispatchCommand
  split
  · split
    · exact (Quiet.freeBuffer _ _).allowed (allowed_placeOffice hn h)
    · exact (Quiet.refuseCommand r a _ s).allowed h
  · split
    · unfold forwardOne
      split
      · exact (Quiet.line (.enqueue _ _ _ (.refl s))).allowed h
      · exact (Quiet.freeBuffer _ s).allowed h
    · exact (Quiet.forwardBoth r s).allowed h

theorem allowed_passCommand (r : Received) (h : OpensAllowed s) : OpensAllowed (passCommand r s) := by
  unfold passCommand
  dsimp only
  split
  · exact (Quiet.freeBuffer _ s).allowed h
  · split
    · exact (Quiet.forwardBoth r s).allowed h
    · split
      · exact (Quiet.refuseCommand r _ _ s).allowed h
      · rename_i hn
        exact allowed_dispatchCommand r hn h

theorem allowed_passOffice (h : OpensAllowed s) : OpensAllowed (passOffice s) := by
  unfold passOffice
  split
  · exact h
  · rename_i hr
    exact (Quiet.drain _).allowed (allowed_passCommand _ ((Quiet.line (Part.takeReceived hr)).allowed h))

/-! ### Restarts (R173, R174) -/

/-- Every holder of a restarted unit is a holder of before, at the same valve station. -/
theorem distinct_beginRestart (cause : RestartCause) (h : StationsDistinct s) :
    StationsDistinct (beginRestart cause s) := by
  have hafresh : ∀ cause, StationsDistinct (beginAfresh cause s) := fun _ i _ _ _ hr =>
    absurd ((Restarts.reset_holder i).symm.trans hr) nofun
  cases cause with
  | power => exact hafresh .power
  | cold => exact hafresh .cold
  | warm =>
    have hread : ∀ k, (beginRestart .warm s).holder k = (s.holder k).map Holder.restarted :=
      Setpoints.recordGet_mapRecords Holder.restarted s.holders
    intro i j r q hr hq hsame
    rw [hread] at hr hq
    obtain ⟨r', hr', rfl⟩ := Option.map_eq_some_iff.mp hr
    obtain ⟨q', hq', rfl⟩ := Option.map_eq_some_iff.mp hq
    exact h i j r' q' hr' hq' hsame

theorem allowed_beginRestart (cause : RestartCause) (h : StationsDistinct s) : OpensAllowed (beginRestart cause s) :=
  opensAllowed_iff.mpr ⟨distinct_beginRestart cause h, .beginRestart cause s⟩

/-! ### Commands -/

namespace OpensWithin

theorem beginPending (h : OpensWithin P s) : OpensWithin P (beginPending s) := by
  unfold Machine.beginPending
  split
  · exact .beginRestart _ s
  · exact h

theorem endTransmission (p : Port) (h : OpensWithin P s) : OpensWithin P (endTransmission p s) := by
  unfold Machine.endTransmission
  split
  · exact h
  · rename_i x _
    have hsent : ∀ f g, OpensWithin P
        ((Machine.freeBuffer x.buffer (handCopyEnd x.tag (s.modPort p f))).modPort p g) := by
      intro f g
      refine (freeBuffer x.buffer ?_).line (.modPort p g (.refl _))
      unfold handCopyEnd
      split
      · exact (h.line (.modPort p f (.refl s))).copyTransmitted _ _
      · exact h.line (.modPort p f (.refl s))
    unfold restartAfter
    split
    · exact beginPending (hsent _ _)
    · exact hsent _ _

theorem arrives {arises : State → Bool} {act : State → State} (k : arrival arises act s = .next t)
    (ha : OpensWithin P s → OpensWithin P (act s)) (h : OpensWithin P s) : OpensWithin P t := by
  obtain rfl | ⟨-, -, rfl⟩ := arrival_cases k
  · exact h
  · exact ha h

theorem performs {code : Nat} {perform : List Byte → State → Performed} (k : request code perform s = .next t)
    (hp : ∀ {s : State} f, OpensWithin P s → OpensWithin P (perform f s).state) (h : OpensWithin P s) :
    OpensWithin P t := arrives k (fun h => h.answerRequest code hp) h

/-- No command places an OPEN but an office COMMAND, or those that write a Holder Record. -/
theorem exec {c : Instr} (hc : .holders ∉ Frames.footprint c) (hoffice : c ≠ .officeCommand)
    (k : exec c s = .next t) (h : OpensWithin P s) : OpensWithin P t := by
  cases c with
  | sample _ | scanComplete _ _ _ _ | waitingTimerExpiry _ | loadPoint | dropPoint | loadLocal | loadHolder | loadLift
  | holderService => simp [Frames.holders_mem_footprint, Frames.points_mem_footprint] at hc
  | officeCommand => exact absurd rfl hoffice
  | powerOn =>
    cases k
    exact .beginRestart .power s
  | restartComplete =>
    cases k
    split
    · exact h.completeRestart
    · exact h
  | receptionStart p o faulty => exact arrives k (·.startReception p o faulty) h
  | octetArrives p o faulty => exact arrives (show execOctetArrives p o faulty s = _ from k) (·.takeOctet p o faulty) h
  | frameEnd p => exact arrives (show execFrameEnd p s = _ from k) (·.endFrame p) h
  | transmitStart p => exact arrives k (·.line (.modPort p _ (.refl s))) h
  | transmissionComplete p =>
    exact arrives (show execTransmissionComplete p s = _ from k) (·.endTransmission p) h
  | separationExpiry p => exact arrives k (·.line (.modPort p _ (.refl s))) h
  | repeatTimerExpiry =>
    exact arrives (show execRepeatTimerExpiry s = _ from k) (·.line (LineOnly.refl s).sendHold.holdingTest) h
  | reply p => exact arrives k (·.passField p fun r b h => h.passReply r b) h
  | agingTimerExpiry a => exact arrives (show execAgingTimerExpiry a s = _ from k) (·.of_directory rfl) h
  | orderSend a => exact arrives k (·.attemptSend a) h
  | replyTimerExpiry a => exact arrives k (·.replyTimerExpired a) h
  | reportSend => exact arrives (show execReportSend s = _ from k) (·.sendReports _ _) h
  | stepTimerExpiry d => exact arrives (show execStepTimerExpiry d s = _ from k) (·.stepBoundary d) h
  | fogTimerExpiry d => exact arrives (show execFogTimerExpiry d s = _ from k) (·.setFog 0 0 d) h
  | clockSecond =>
    cases k
    split
    · unfold advanceClock
      dsimp only
      split <;> exact h.of_directory rfl
    · exact h
  | wholeHour => exact arrives (show execWholeHour s = _ from k) (·.kept (.takeHourDue s)) h
  | settleTimerExpiry => exact arrives (show execSettleTimerExpiry s = _ from k) (·.of_directory rfl) h
  | scanTimerExpiry => exact arrives (show execScanTimerExpiry s = _ from k) (·.of_directory rfl) h
  | loadSettings => exact performs k (fun f h => h.loadSettings f) h
  | loadStation => exact performs k (fun _ h => h.judge _ (h.storeStation _)) h
  | dropStation => exact performs k (fun _ h => h.judge _ (h.removeStation _)) h
  | loadVapour => exact performs k (fun _ h => h.judge _ (h.of_directory rfl)) h
  | loadDistrict => exact performs k (fun f h => h.judge _ (h.storeDistrict f)) h
  | loadProfile => exact performs k (fun _ h => h.judge _ (h.storeProfile _ _)) h
  | stepNow => exact performs k (fun _ h => h.judge _ (h.stepBoundary _)) h
  | districtMode => exact performs k (fun _ h => h.judge _ (h.changeMode _ _)) h
  | fog => exact performs k (fun _ h => h.judge _ (foldl (fun d h => h.setFog _ _ d) _ h)) h
  | loadMeter => exact performs k (fun f h => h.judge _ (h.storeMeter f)) h
  | setClock => exact performs k (fun f h => h.setClock f) h
  | collectDay => exact performs k (fun _ h => h.judge _ h.collect) h
  | read => exact performs k (fun f h => h.readRequest f) h
  | ackAlarm => exact performs k (fun _ h => h.judge _ (h.acknowledge _)) h
  | reset => exact performs k (fun _ h => h.judge _ (h.of_directory rfl)) h
  | resetTimerExpiry => exact arrives (show execResetTimerExpiry s = _ from k) (·.beginPending) h

end OpensWithin

theorem allowed_arrives {arises : State → Bool} {act : State → State} (k : arrival arises act s = .next t)
    (ha : OpensAllowed s → OpensAllowed (act s)) (h : OpensAllowed s) : OpensAllowed t := by
  obtain rfl | ⟨-, -, rfl⟩ := arrival_cases k
  · exact h
  · exact ha h

theorem allowed_performs {code : Nat} {perform : List Byte → State → Performed} (k : request code perform s = .next t)
    (hp : ∀ {s : State} f, OpensAllowed s → OpensAllowed (perform f s).state) (h : OpensAllowed s) :
    OpensAllowed t := by
  refine allowed_arrives k (fun h => ?_) h
  unfold answerRequest
  split
  · exact h
  · rename_i hr
    exact (Quiet.trans (.line (.enqueue _ _ _ (.refl _))) (.drain _)).allowed
      (hp _ ((Quiet.line (Part.takeReceived hr)).allowed h))

theorem allowed_judge {checks : List (Bool × ResultCode)} {act : State → State}
    (ha : firstFailure checks = none → OpensAllowed (act s)) (h : OpensAllowed s) :
    OpensAllowed (judge checks act s).state := by
  unfold judge
  split
  · exact h
  · rename_i hn
    exact ha hn

/-- A request none of whose checks fails. -/
theorem check_of_firstFailure {checks : List (Bool × ResultCode)} {b : Bool} {x : ResultCode}
    (h : firstFailure checks = none) (hb : (b, x) ∈ checks) : b = false := by
  induction checks with
  | nil => cases hb
  | cons c rest ih =>
    rw [firstFailure_cons] at h
    split at h
    · cases h
    · rename_i hpass
      obtain rfl | hrest := List.mem_cons.mp hb
      · simpa using hpass
      · exact ih h hrest

theorem allowed_loadHolder (f : List Byte) (h : OpensAllowed s) : OpensAllowed (loadHolder f s).state := by
  refine allowed_judge (fun hn => ?_) h
  have hfree : valveStationTaken (octetAt f 0) (octetAt f 1) s = false :=
    check_of_firstFailure (x := .duplicate) hn (by simp)
  have hout : (s.holder (octetAt f 0)).any (·.inReckoning) = false :=
    check_of_firstFailure (x := .inService) hn (by simp)
  refine allowed_storeHolder (fun k q hk hq hsame => ?_) hout h
  have htaken := (Holders.valveStationTaken_iff _ _ s).mpr (.inl ⟨k, q, hk, hq, hsame⟩)
  exact absurd htaken (by simp [hfree])

theorem allowed_loadLift (f : List Byte) (h : OpensAllowed s) : OpensAllowed (loadLift f s).state :=
  allowed_judge (fun hn => allowed_storeLift _ _ (check_of_firstFailure (x := .inService) hn (by simp)) h) h

/-- A command that writes no Holder Record. -/
theorem allowed_of_footprint {c : Instr} (hc : .holders ∉ Frames.footprint c) (hoffice : c ≠ .officeCommand)
    (k : exec c s = .next t) (h : OpensAllowed s) : OpensAllowed t := by
  obtain hwrites | ⟨u, cause, hwrites, rfl⟩ := Frames.exec_writes k
  · exact (Quiet.of_writes hwrites hc fun _ o => o.exec hc hoffice k).allowed h
  · have hholder : ∀ j, u.holder j = s.holder j := fun j => congrArg (recordGet · j) (hwrites .holders hc)
    refine allowed_beginRestart cause ?_
    simpa only [StationsDistinct, hholder] using (opensAllowed_iff.mp h).1

theorem allowed_passField (p : Port) {pass : Received → Branch → State → State}
    (hp : ∀ {s : State} r b, OpensAllowed s → OpensAllowed (pass r b s)) (h : OpensAllowed s) :
    OpensAllowed (passField p pass s) := by
  unfold passField
  split
  · rename_i hr
    exact hp _ _ ((Quiet.line (Part.takeReceived hr)).allowed h)
  · exact h

theorem Quiet.queue (l : List Instr) (s : State) : Quiet s { s with pending := l } := .of_eq rfl rfl

theorem allowed_exec {c : Instr} (k : exec c s = .next t) (h : OpensAllowed s) : OpensAllowed t := by
  by_cases hoffice : c = .officeCommand
  · subst hoffice
    exact allowed_arrives k allowed_passOffice h
  by_cases hc : .holders ∈ Frames.footprint c
  · rw [Frames.holders_mem_footprint, Frames.points_mem_footprint] at hc
    obtain (⟨p, rfl⟩ | ⟨c0, c1, c2, c3, rfl⟩ | ⟨a, rfl⟩ | rfl | rfl | rfl) | rfl | rfl | rfl := hc
    · exact allowed_arrives k (allowed_passField p fun r b => allowed_passSample r b) h
    · exact allowed_arrives k (allowed_finishScan _) h
    · exact allowed_arrives (show execWaitingTimerExpiry a s = _ from k) (allowed_goSilent a) h
    · exact allowed_performs k (fun f h => allowed_judge (fun _ => allowed_storePoint f h) h) h
    · exact allowed_performs k (fun _ h => allowed_judge (fun _ => allowed_pointReplaced _ _ _ h) h) h
    · exact allowed_performs k (fun _ h => allowed_judge (fun _ => allowed_setLocal _ _ _ h) h) h
    · exact allowed_performs k (fun f h => allowed_loadHolder f h) h
    · exact allowed_performs k (fun f h => allowed_loadLift f h) h
    · exact allowed_performs k (fun _ h => allowed_judge (fun _ => allowed_setService _ _ h) h) h
  · exact allowed_of_footprint hc hoffice k h

/-- Settles O57: every command keeps R41, R50 and R64. What newly forbids an OPEN withdraws those that stand, an office
COMMAND places none that R48 refuses, and nothing else places one. -/
theorem opensStayAllowed : Obligations.OpensStayAllowed := by
  intro s t k h
  unfold step at k
  split at k
  · cases k
    exact h
  · exact allowed_exec k ((Quiet.queue _ s).allowed h)

end Sys2Proof.Opens
end
